-- ==== Sys2Proof/Word.lean ====
section
/-! DEFINITION. The word types of the CHIP-8 core (spec/00_scope.md section 5): bytes, 16-bit words, 12-bit addresses,
register numbers and pixel coordinates. -/

namespace Sys2Proof

/-- An 8-bit value: a register, a timer, a byte of memory, the immediate NN. -/
abbrev Byte := BitVec 8

/-- A 16-bit value: an instruction word, PC, I, a stack slot, a fault register. -/
abbrev Word := BitVec 16

/-- The 12-bit immediate NNN (R62). -/
abbrev Addr12 := BitVec 12

/-- A register number 0 to 15: every value of the 4-bit field names a register (R14, R64). -/
abbrev Reg := Fin 16

/-- A key number 0x0 to 0xF (R27). -/
abbrev Key := Fin 16

/-- A column of the frame buffer, 0 to 63 (R25). -/
abbrev Col := Fin 64

/-- A row of the frame buffer, 0 to 31 (R25). -/
abbrev Row := Fin 32

end Sys2Proof
end

