-- ==== Sys2Proof/Syntax.lean ====
section
/-! DEFINITION. The 34 instructions, one constructor per row of the opcode table (spec/30_encoding.md section 3), and the
table's rows: format, mask and match. -/

namespace Sys2Proof

/-- The instructions, in the table's order. Operand order is X, then Y, then N or NN; address forms take NNN alone (R74).
SHIFT_RIGHT and SHIFT_LEFT keep their ignored field Y, so that no bit of a word is lost (R83). -/
inductive Instr where
  | clear                                   -- 00E0 CLEAR
  | ret                                     -- 00EE RETURN
  | jump (nnn : Addr12)                     -- 1NNN JUMP
  | call (nnn : Addr12)                     -- 2NNN CALL
  | skipEqImm (x : Reg) (nn : Byte)         -- 3XNN SKIP_EQ_IMM
  | skipNeqImm (x : Reg) (nn : Byte)        -- 4XNN SKIP_NEQ_IMM
  | skipEqReg (x y : Reg)                   -- 5XY0 SKIP_EQ_REG
  | setImm (x : Reg) (nn : Byte)            -- 6XNN SET_IMM
  | addImm (x : Reg) (nn : Byte)            -- 7XNN ADD_IMM
  | setReg (x y : Reg)                      -- 8XY0 SET_REG
  | orReg (x y : Reg)                       -- 8XY1 OR
  | andReg (x y : Reg)                      -- 8XY2 AND
  | xorReg (x y : Reg)                      -- 8XY3 XOR
  | addReg (x y : Reg)                      -- 8XY4 ADD_REG
  | subReg (x y : Reg)                      -- 8XY5 SUB_REG
  | shiftRight (x y : Reg)                  -- 8XY6 SHIFT_RIGHT
  | subReverse (x y : Reg)                  -- 8XY7 SUB_REVERSE
  | shiftLeft (x y : Reg)                   -- 8XYE SHIFT_LEFT
  | skipNeqReg (x y : Reg)                  -- 9XY0 SKIP_NEQ_REG
  | setIndex (nnn : Addr12)                 -- ANNN SET_INDEX
  | jumpOffset (nnn : Addr12)               -- BNNN JUMP_OFFSET
  | random (x : Reg) (nn : Byte)            -- CXNN RANDOM
  | drawSprite (x y : Reg) (n : Fin 16)     -- DXYN DRAW_SPRITE
  | skipKeyPressed (x : Reg)                -- EX9E SKIP_KEY_PRESSED
  | skipKeyNotPressed (x : Reg)             -- EXA1 SKIP_KEY_NOT_PRESSED
  | getDelay (x : Reg)                      -- FX07 GET_DELAY
  | waitKey (x : Reg)                       -- FX0A WAIT_KEY
  | setDelay (x : Reg)                      -- FX15 SET_DELAY
  | setSound (x : Reg)                      -- FX18 SET_SOUND
  | addToIndex (x : Reg)                    -- FX1E ADD_TO_INDEX
  | fontCharAddress (x : Reg)               -- FX29 FONT_CHAR_ADDRESS
  | bcd (x : Reg)                           -- FX33 BCD
  | registerDump (x : Reg)                  -- FX55 REGISTER_DUMP
  | registerLoad (x : Reg)                  -- FX65 REGISTER_LOAD
  deriving DecidableEq, Repr

/-- The six formats (R63). -/
inductive Format where
  | z     -- no operand
  | a     -- NNN
  | ri    -- X, NN
  | rr    -- X, Y, sub-opcode nibble
  | rrn   -- X, Y, N
  | r     -- X, sub-opcode byte
  deriving DecidableEq, Repr

/-- One row of the opcode table: a word selects it when `word & mask = mtch` (R65). -/
structure TableRow where
  mnemonic : String
  format   : Format
  mask     : Word
  mtch     : Word
  deriving DecidableEq, Repr

/-- The row of the opcode table an instruction belongs to. -/
def Instr.row : Instr → TableRow
  | .clear               => ⟨"CLEAR", .z, 0xFFFF, 0x00E0⟩
  | .ret                 => ⟨"RETURN", .z, 0xFFFF, 0x00EE⟩
  | .jump _              => ⟨"JUMP", .a, 0xF000, 0x1000⟩
  | .call _              => ⟨"CALL", .a, 0xF000, 0x2000⟩
  | .skipEqImm _ _       => ⟨"SKIP_EQ_IMM", .ri, 0xF000, 0x3000⟩
  | .skipNeqImm _ _      => ⟨"SKIP_NEQ_IMM", .ri, 0xF000, 0x4000⟩
  | .skipEqReg _ _       => ⟨"SKIP_EQ_REG", .rr, 0xF00F, 0x5000⟩
  | .setImm _ _          => ⟨"SET_IMM", .ri, 0xF000, 0x6000⟩
  | .addImm _ _          => ⟨"ADD_IMM", .ri, 0xF000, 0x7000⟩
  | .setReg _ _          => ⟨"SET_REG", .rr, 0xF00F, 0x8000⟩
  | .orReg _ _           => ⟨"OR", .rr, 0xF00F, 0x8001⟩
  | .andReg _ _          => ⟨"AND", .rr, 0xF00F, 0x8002⟩
  | .xorReg _ _          => ⟨"XOR", .rr, 0xF00F, 0x8003⟩
  | .addReg _ _          => ⟨"ADD_REG", .rr, 0xF00F, 0x8004⟩
  | .subReg _ _          => ⟨"SUB_REG", .rr, 0xF00F, 0x8005⟩
  | .shiftRight _ _      => ⟨"SHIFT_RIGHT", .rr, 0xF00F, 0x8006⟩
  | .subReverse _ _      => ⟨"SUB_REVERSE", .rr, 0xF00F, 0x8007⟩
  | .shiftLeft _ _       => ⟨"SHIFT_LEFT", .rr, 0xF00F, 0x800E⟩
  | .skipNeqReg _ _      => ⟨"SKIP_NEQ_REG", .rr, 0xF00F, 0x9000⟩
  | .setIndex _          => ⟨"SET_INDEX", .a, 0xF000, 0xA000⟩
  | .jumpOffset _        => ⟨"JUMP_OFFSET", .a, 0xF000, 0xB000⟩
  | .random _ _          => ⟨"RANDOM", .ri, 0xF000, 0xC000⟩
  | .drawSprite _ _ _    => ⟨"DRAW_SPRITE", .rrn, 0xF000, 0xD000⟩
  | .skipKeyPressed _    => ⟨"SKIP_KEY_PRESSED", .r, 0xF0FF, 0xE09E⟩
  | .skipKeyNotPressed _ => ⟨"SKIP_KEY_NOT_PRESSED", .r, 0xF0FF, 0xE0A1⟩
  | .getDelay _          => ⟨"GET_DELAY", .r, 0xF0FF, 0xF007⟩
  | .waitKey _           => ⟨"WAIT_KEY", .r, 0xF0FF, 0xF00A⟩
  | .setDelay _          => ⟨"SET_DELAY", .r, 0xF0FF, 0xF015⟩
  | .setSound _          => ⟨"SET_SOUND", .r, 0xF0FF, 0xF018⟩
  | .addToIndex _        => ⟨"ADD_TO_INDEX", .r, 0xF0FF, 0xF01E⟩
  | .fontCharAddress _   => ⟨"FONT_CHAR_ADDRESS", .r, 0xF0FF, 0xF029⟩
  | .bcd _               => ⟨"BCD", .r, 0xF0FF, 0xF033⟩
  | .registerDump _      => ⟨"REGISTER_DUMP", .r, 0xF0FF, 0xF055⟩
  | .registerLoad _      => ⟨"REGISTER_LOAD", .r, 0xF0FF, 0xF065⟩

/-- One instruction of each row, in the table's order; the operands are arbitrary. -/
def Instr.samples : List Instr :=
  [.clear, .ret, .jump 0, .call 0, .skipEqImm 0 0, .skipNeqImm 0 0, .skipEqReg 0 0, .setImm 0 0, .addImm 0 0,
   .setReg 0 0, .orReg 0 0, .andReg 0 0, .xorReg 0 0, .addReg 0 0, .subReg 0 0, .shiftRight 0 0, .subReverse 0 0,
   .shiftLeft 0 0, .skipNeqReg 0 0, .setIndex 0, .jumpOffset 0, .random 0 0, .drawSprite 0 0 0,
   .skipKeyPressed 0, .skipKeyNotPressed 0, .getDelay 0, .waitKey 0, .setDelay 0, .setSound 0,
   .addToIndex 0, .fontCharAddress 0, .bcd 0, .registerDump 0, .registerLoad 0]

/-- The opcode table: its 34 rows, in order (spec/30_encoding.md section 3). -/
def opcodeTable : List TableRow := Instr.samples.map Instr.row

end Sys2Proof
end

