-- ==== Sys2Proof/WellFormed.lean ====
section
/-! DEFINITION. What a well-formed row, table and instruction are. The operand types of `Instr` admit only values their
fields can encode (R64), so what is left to check is the table an instruction is encoded from. -/

namespace Sys2Proof

/-- The bits a format fixes (R63): all, the opcode nibble, or the opcode nibble and the sub-opcode. -/
def Format.mask : Format → Word
  | .z   => 0xFFFF
  | .a   => 0xF000
  | .ri  => 0xF000
  | .rr  => 0xF00F
  | .rrn => 0xF000
  | .r   => 0xF0FF

/-- A row's match has no bit outside its mask, so that some word selects it (R65). -/
def TableRow.matchInMask (r : TableRow) : Bool := r.mtch &&& ~~~ r.mask == 0

/-- A row's mask is the one of its format (R63). -/
def TableRow.maskOfFormat (r : TableRow) : Bool := r.mask == r.format.mask

/-- A row is well formed. -/
def TableRow.wellFormed (r : TableRow) : Bool := r.matchInMask && r.maskOfFormat

/-- No word selects both rows: their matches differ in a bit that both masks fix (R65). -/
def TableRow.disjoint (r q : TableRow) : Bool := (r.mtch ^^^ q.mtch) &&& r.mask &&& q.mask != 0

/-- Every row is well formed and the rows are pairwise disjoint (R65). -/
def tableWellFormed : List TableRow → Bool
  | []      => true
  | r :: rs => r.wellFormed && rs.all r.disjoint && tableWellFormed rs

/-- An instruction is well formed: its row stands in the opcode table and is well formed. -/
def Instr.wellFormed (i : Instr) : Bool := opcodeTable.contains i.row && i.row.wellFormed

end Sys2Proof
end

