-- ==== Sys2Proof/Decode.lean ====
section
/-! DEFINITION. Decoding (spec/30_encoding.md R60 to R73), total on any bytes and rejecting by name, and after it the
encoder, written from the same patterns. -/

namespace Sys2Proof

/-- Why bytes are no instruction. -/
inductive DecodeError where
  /-- The word matches no row of the opcode table (R71). -/
  | unknownOpcode (w : Word)
  /-- Fewer than two bytes: every instruction has exactly 16 bits (R60). -/
  | truncated
  deriving DecidableEq, Repr

/-- The opcode nibble, bits 15:12 (R62). -/
def fieldOp (w : Word) : Nat := (w.extractLsb' 12 4).toNat

/-- The register field X, bits 11:8 (R62). -/
def fieldX (w : Word) : Reg := (w.extractLsb' 8 4).toFin

/-- The register field Y, bits 7:4 (R62). -/
def fieldY (w : Word) : Reg := (w.extractLsb' 4 4).toFin

/-- The field N, bits 3:0 (R62). -/
def fieldN (w : Word) : Fin 16 := (w.extractLsb' 0 4).toFin

/-- The immediate NN, bits 7:0 (R62). -/
def fieldNN (w : Word) : Byte := w.extractLsb' 0 8

/-- The address NNN, bits 11:0 (R62). -/
def fieldNNN (w : Word) : Addr12 := w.extractLsb' 0 12

/-- Family 0: the whole word is compared (R66). -/
def decodeFamily0 (w : Word) : Except DecodeError Instr :=
  if w = 0x00E0 then .ok .clear
  else if w = 0x00EE then .ok .ret
  else .error (.unknownOpcode w)

/-- Families 5 and 9: the trailing nibble must be 0 (R70, spec/90_conflicts.md C4). -/
def decodeZeroNibble (i : Reg → Reg → Instr) (w : Word) : Except DecodeError Instr :=
  if fieldN w = 0 then .ok (i (fieldX w) (fieldY w)) else .error (.unknownOpcode w)

/-- Family 8: sub-dispatch on the trailing nibble (R67). -/
def decodeFamily8 (w : Word) : Except DecodeError Instr :=
  match (fieldN w).val with
  | 0x0 => .ok (.setReg (fieldX w) (fieldY w))
  | 0x1 => .ok (.orReg (fieldX w) (fieldY w))
  | 0x2 => .ok (.andReg (fieldX w) (fieldY w))
  | 0x3 => .ok (.xorReg (fieldX w) (fieldY w))
  | 0x4 => .ok (.addReg (fieldX w) (fieldY w))
  | 0x5 => .ok (.subReg (fieldX w) (fieldY w))
  | 0x6 => .ok (.shiftRight (fieldX w) (fieldY w))
  | 0x7 => .ok (.subReverse (fieldX w) (fieldY w))
  | 0xE => .ok (.shiftLeft (fieldX w) (fieldY w))
  | _   => .error (.unknownOpcode w)

/-- Family E: sub-dispatch on the trailing byte (R68). -/
def decodeFamilyE (w : Word) : Except DecodeError Instr :=
  match (fieldNN w).toNat with
  | 0x9E => .ok (.skipKeyPressed (fieldX w))
  | 0xA1 => .ok (.skipKeyNotPressed (fieldX w))
  | _    => .error (.unknownOpcode w)

/-- Family F: sub-dispatch on the trailing byte (R69). -/
def decodeFamilyF (w : Word) : Except DecodeError Instr :=
  match (fieldNN w).toNat with
  | 0x07 => .ok (.getDelay (fieldX w))
  | 0x0A => .ok (.waitKey (fieldX w))
  | 0x15 => .ok (.setDelay (fieldX w))
  | 0x18 => .ok (.setSound (fieldX w))
  | 0x1E => .ok (.addToIndex (fieldX w))
  | 0x29 => .ok (.fontCharAddress (fieldX w))
  | 0x33 => .ok (.bcd (fieldX w))
  | 0x55 => .ok (.registerDump (fieldX w))
  | 0x65 => .ok (.registerLoad (fieldX w))
  | _    => .error (.unknownOpcode w)

/-- `Decode(w)`: dispatch on the leading nibble (R65 to R73). The last arm is never reached: the nibble is at most 0xF. -/
def decodeWord (w : Word) : Except DecodeError Instr :=
  match fieldOp w with
  | 0x0 => decodeFamily0 w
  | 0x1 => .ok (.jump (fieldNNN w))
  | 0x2 => .ok (.call (fieldNNN w))
  | 0x3 => .ok (.skipEqImm (fieldX w) (fieldNN w))
  | 0x4 => .ok (.skipNeqImm (fieldX w) (fieldNN w))
  | 0x5 => decodeZeroNibble .skipEqReg w
  | 0x6 => .ok (.setImm (fieldX w) (fieldNN w))
  | 0x7 => .ok (.addImm (fieldX w) (fieldNN w))
  | 0x8 => decodeFamily8 w
  | 0x9 => decodeZeroNibble .skipNeqReg w
  | 0xA => .ok (.setIndex (fieldNNN w))
  | 0xB => .ok (.jumpOffset (fieldNNN w))
  | 0xC => .ok (.random (fieldX w) (fieldNN w))
  | 0xD => .ok (.drawSprite (fieldX w) (fieldY w) (fieldN w))
  | 0xE => decodeFamilyE w
  | 0xF => decodeFamilyF w
  | _   => .error (.unknownOpcode w)

/-- The word of two consecutive bytes, the byte at the lower address in bits 15:8 (R44, R46). -/
def wordOfBytes (hi lo : Byte) : Word := hi ++ lo

/-- The high byte of a word, bits 15:8. -/
def highByte (w : Word) : Byte := w.extractLsb' 8 8

/-- The low byte of a word, bits 7:0. -/
def lowByte (w : Word) : Byte := w.extractLsb' 0 8

/-- Decoding a list of bytes: the instruction of the first two and the bytes after them (R60, R61). -/
def decodeBytes : List Byte → Except DecodeError (Instr × List Byte)
  | hi :: lo :: rest =>
    match decodeWord (wordOfBytes hi lo) with
    | .ok i    => .ok (i, rest)
    | .error e => .error e
  | _ => .error .truncated

/-- A word written in `nbits` bits of the opcode table's numbering: bit 0 is the least significant bit of the one 16-bit
word, and the bits from `nbits` on are 0. -/
def tableWord (nbits w : Nat) : Word := BitVec.ofNat 16 (w % 2 ^ nbits)

/-- The instruction the decoder reads from a word numbered as spec/opcode_table.json numbers it, laid out in memory high
byte first (R46). -/
def decodeTableWord (nbits w : Nat) : Option Instr :=
  match decodeBytes [highByte (tableWord nbits w), lowByte (tableWord nbits w)] with
  | .ok (i, _) => some i
  | .error _   => none

/-- A register number as the 4 bits of its field. -/
def regBits (x : Fin 16) : BitVec 4 := BitVec.ofFin x

/-- Format A: opcode nibble and NNN (R63). -/
def encodeA (op : BitVec 4) (nnn : Addr12) : Word := op ++ nnn

/-- Formats RI and R: opcode nibble, X and the trailing byte (R63). -/
def encodeRI (op : BitVec 4) (x : Reg) (nn : Byte) : Word := op ++ regBits x ++ nn

/-- Formats RR and RRN: opcode nibble, X, Y and the trailing nibble (R63). -/
def encodeRR (op : BitVec 4) (x y : Reg) (n : BitVec 4) : Word := op ++ regBits x ++ regBits y ++ n

/-- The word of an instruction, from the patterns of the opcode table (spec/30_encoding.md section 3). -/
def encode : Instr → Word
  | .clear               => 0x00E0
  | .ret                 => 0x00EE
  | .jump nnn            => encodeA 0x1 nnn
  | .call nnn            => encodeA 0x2 nnn
  | .skipEqImm x nn      => encodeRI 0x3 x nn
  | .skipNeqImm x nn     => encodeRI 0x4 x nn
  | .skipEqReg x y       => encodeRR 0x5 x y 0x0
  | .setImm x nn         => encodeRI 0x6 x nn
  | .addImm x nn         => encodeRI 0x7 x nn
  | .setReg x y          => encodeRR 0x8 x y 0x0
  | .orReg x y           => encodeRR 0x8 x y 0x1
  | .andReg x y          => encodeRR 0x8 x y 0x2
  | .xorReg x y          => encodeRR 0x8 x y 0x3
  | .addReg x y          => encodeRR 0x8 x y 0x4
  | .subReg x y          => encodeRR 0x8 x y 0x5
  | .shiftRight x y      => encodeRR 0x8 x y 0x6
  | .subReverse x y      => encodeRR 0x8 x y 0x7
  | .shiftLeft x y       => encodeRR 0x8 x y 0xE
  | .skipNeqReg x y      => encodeRR 0x9 x y 0x0
  | .setIndex nnn        => encodeA 0xA nnn
  | .jumpOffset nnn      => encodeA 0xB nnn
  | .random x nn         => encodeRI 0xC x nn
  | .drawSprite x y n    => encodeRR 0xD x y (regBits n)
  | .skipKeyPressed x    => encodeRI 0xE x 0x9E
  | .skipKeyNotPressed x => encodeRI 0xE x 0xA1
  | .getDelay x          => encodeRI 0xF x 0x07
  | .waitKey x           => encodeRI 0xF x 0x0A
  | .setDelay x          => encodeRI 0xF x 0x15
  | .setSound x          => encodeRI 0xF x 0x18
  | .addToIndex x        => encodeRI 0xF x 0x1E
  | .fontCharAddress x   => encodeRI 0xF x 0x29
  | .bcd x               => encodeRI 0xF x 0x33
  | .registerDump x      => encodeRI 0xF x 0x55
  | .registerLoad x      => encodeRI 0xF x 0x65

/-- The bytes of an instruction as they lie in memory, high byte first (R46). -/
def encodeBytes (i : Instr) : List Byte := [highByte (encode i), lowByte (encode i)]

end Sys2Proof
end

