-- ==== Sys2Proof/Config.lean ====
section
/-! DEFINITION. What one core instance fixes (spec/00_scope.md section 5) and the model's one free value, the random
byte. -/

namespace Sys2Proof

/-- `MEM_SIZE`: the number of byte addresses of `MEM` (R10). -/
abbrev Config.memSize : Nat := 0x1000

/-- `PROG_BASE`: the load address and the PC after reset (R241, R244). -/
abbrev Config.progBase : Nat := 0x200

/-- `PROG_MAX`: the longest image `LoadProgram` accepts, 4096 − 0x200 bytes (R244, R245). -/
abbrev Config.progMax : Nat := 3584

/-- `FONT_BASE`: where the font set lies (R143). -/
abbrev Config.fontBase : Nat := 0x000

/-- `FONT_ROM`: the 80 font bytes, glyph `d` at index `5·d`. PRESUMED (log 1): a parameter of the model, set here to the
spec's default table of R13, which the spec marks as general knowledge. -/
def Config.fontRom : List Byte :=
  [0xF0, 0x90, 0x90, 0x90, 0xF0,  0x20, 0x60, 0x20, 0x20, 0x70] ++
  [0xF0, 0x10, 0xF0, 0x80, 0xF0,  0xF0, 0x10, 0xF0, 0x10, 0xF0] ++
  [0x90, 0x90, 0xF0, 0x10, 0x10,  0xF0, 0x80, 0xF0, 0x10, 0xF0] ++
  [0xF0, 0x80, 0xF0, 0x90, 0xF0,  0xF0, 0x10, 0x20, 0x40, 0x40] ++
  [0xF0, 0x90, 0xF0, 0x90, 0xF0,  0xF0, 0x90, 0xF0, 0x10, 0xF0] ++
  [0xF0, 0x90, 0xF0, 0x90, 0x90,  0xE0, 0x90, 0xE0, 0x90, 0xE0] ++
  [0xF0, 0x80, 0x80, 0x80, 0xF0,  0xE0, 0x90, 0x90, 0x90, 0xE0] ++
  [0xF0, 0x80, 0xF0, 0x80, 0xF0,  0xF0, 0x80, 0xF0, 0x80, 0x80]

/-- The random stream (R28, R222): the byte the host supplies for the `n`-th draw. A FREE VALUE (log 2): it has no body,
so whatever is proved holds for every stream. DESIGN CHOICE (log 17): it is ONE stream, the same for every state; whether
two core instances (R6) are fed the same bytes the spec leaves to the host. -/
opaque Config.rnd : Nat → Byte

end Sys2Proof
end

