-- ==== Sys2Proof/Machine/State.lean ====
section
/-! DEFINITION. The state of the core as plain data (spec/10_state.md R10 to R31), the outcomes' reasons, and the state
after `Reset` (spec/70_reset_and_hazards.md R241). -/

namespace Sys2Proof.Machine

/-- Why a step stops. The four fatal conditions of the spec are NOT here: their entry is described (R203), so they are
next states with the fault registers written (log 3). -/
inductive Fault where
  /-- Raised by `onWord` where an integer that becomes a PC or a return address does not fit 16 bits: the spec gives no
  wrap rule (R17, spec/92_eei_decisions.md D30). Safe: no `step` raises it, only `exec` called at a PC that no fetch
  accepts (log 8). -/
  | pcOverflow
  deriving DecidableEq, Repr

/-- Why an instruction has no meaning. -/
inductive Refusal where
  /-- Raised by an arm of `exec` whose instruction has no meaning yet; no arm does. Safe. -/
  | notModelled (mnemonic : String)
  deriving DecidableEq, Repr

/-- `FAULT_CAUSE` (R201): 0 to 4 by the constructors' order; 5 to 7 are never written (log 7). -/
inductive FaultCause where
  | none
  | unknownOpcode
  | stackOverflow
  | stackUnderflow
  | outOfBoundsAccess
  deriving DecidableEq, Repr

/-- `status`, the first output of `Step` (R84). -/
inductive StepStatus where
  | ok
  | stalled
  | fault
  deriving DecidableEq, Repr

/-- The two outputs of `Step` (R84). -/
structure StepOutput where
  status : StepStatus
  redraw : Bool
  deriving DecidableEq, Repr

/-- The result of `LoadProgram` (R244, R245). -/
inductive LoadResult where
  | loaded
  | programTooLarge
  deriving DecidableEq, Repr

/-- The atomic operations the host invokes (R1, R2). -/
inductive Operation where
  /-- `Step`: one Execution Cycle. -/
  | step
  /-- `Tick`: one Timer Tick. -/
  | tick
  /-- The host writes one key flag. -/
  | writeKey (k : Key) (pressed : Bool)
  /-- The host reads the frame buffer. -/
  | readFrame
  /-- `LoadProgram(bytes)`. -/
  | loadProgram (bytes : List Byte)
  /-- `Reset`. -/
  | reset
  deriving DecidableEq, Repr

/-- `MEM` as the cells that differ from its contents after `Reset`, by rising address (R10, R12). -/
abbrev Memory := List Host.Cell

/-- All state of one core instance. The last four fields are the model's own (log 2, 4, 5, 6). -/
structure State where
  /-- `MEM` (R10). -/
  mem : Memory
  /-- `V[0..15]`; `V[15]` is VF, the only flag (R14, R15). -/
  v : Vector Byte 16
  /-- `I` (R16). -/
  i : Word
  /-- `PC` (R17). -/
  pc : Word
  /-- `STACK[0..15]` (R18). -/
  stack : Vector Word 16
  /-- `SP`, the number of live entries, 0 to 16 (R19). -/
  sp : Fin 17
  /-- `DT`, the delay timer (R22). -/
  dt : Byte
  /-- `ST`, the sound timer (R23). -/
  st : Byte
  /-- `FB`: 32 rows of 64 pixels (R25). -/
  fb : Vector (Vector Bool 64) 32
  /-- `DIRTY` (R26). -/
  dirty : Bool
  /-- `KEY[0..15]` (R27). -/
  key : Vector Bool 16
  /-- `FAULT_CAUSE` (R29). -/
  faultCause : FaultCause
  /-- `FAULT_PC` (R29). -/
  faultPc : Word
  /-- `FAULT_WORD` (R29). -/
  faultWord : Word
  /-- `FAULT_ADDR` (R29). -/
  faultAddr : Word
  /-- How many random bytes have been drawn (R28, log 2), a place in the one stream all states share (log 17). -/
  rndCount : Nat
  /-- The outputs of the latest `Step`, if one has returned (R84, log 4). -/
  output : Option StepOutput
  /-- The result of the latest `LoadProgram`, if there was one (R245, log 6). -/
  loadResult : Option LoadResult
  /-- The host's operations still to come, oldest first (R2, R3, log 5). -/
  schedule : List Operation
  deriving DecidableEq, Repr

/-- The state after `Reset` (R241). The memory lists nothing: every byte has its value after reset. -/
def State.reset : State where
  mem := []
  v := Vector.replicate 16 0
  i := 0
  pc := 0x0200
  stack := Vector.replicate 16 0
  sp := 0
  dt := 0
  st := 0
  fb := Vector.replicate 32 (Vector.replicate 64 false)
  dirty := false
  key := Vector.replicate 16 false
  faultCause := .none
  faultPc := 0
  faultWord := 0
  faultAddr := 0
  rndCount := 0
  output := Option.none
  loadResult := Option.none
  schedule := []

end Sys2Proof.Machine
end

