-- ==== Sys2Proof/Machine/Memory.lean ====
section
/-! DEFINITION. Memory: what an unlisted address reads as, one byte read and written, a run of bytes written, and the
canonical form (spec/20_memory.md R40 to R49). Bounds are checked by the callers, before the first access (R45). -/

namespace Sys2Proof.Machine

/-- What an address that no cell lists reads as: its contents after `Reset`, the font at 0x000 to 0x04F and 0x00 elsewhere
(R12). -/
def Memory.unlisted (a : Nat) : Byte := (Config.fontRom[a]?).getD 0

/-- The byte at an address (R49). -/
def Memory.read : Memory → Nat → Byte
  | [], a => Memory.unlisted a
  | (b, v) :: m, a => if b = a then v else Memory.read m a

/-- The cells other than the one of an address. -/
def Memory.erase (m : Memory) (a : Nat) : Memory := m.filter fun c => c.1 != a

/-- A cell put in its place by rising address. -/
def Memory.insert : Memory → Nat → Byte → Memory
  | [], a, v => [(a, v)]
  | (b, u) :: m, a, v => if a < b then (a, v) :: (b, u) :: m else (b, u) :: Memory.insert m a v

/-- `MEM[a] <- v` (R43). Writing the value an unlisted address reads as removes the cell, so equal memories are equal
lists. -/
def Memory.write (m : Memory) (a : Nat) (v : Byte) : Memory :=
  if v = Memory.unlisted a then Memory.erase m a else Memory.insert (Memory.erase m a) a v

/-- Bytes written one by one at ascending addresses from `a` on (R41). -/
def Memory.writeBytes : Memory → Nat → List Byte → Memory
  | m, _, []      => m
  | m, a, v :: vs => Memory.writeBytes (Memory.write m a v) (a + 1) vs

/-- Every cell lies above `lo`, inside the address space, by rising address, and differs from what its address reads as
unlisted. -/
def Memory.wfFrom (lo : Nat) : Memory → Bool
  | [] => true
  | (a, v) :: m => lo ≤ a && a < Config.memSize && v != Memory.unlisted a && Memory.wfFrom (a + 1) m

/-- The canonical form of memory. -/
def Memory.wf (m : Memory) : Bool := Memory.wfFrom 0 m

end Sys2Proof.Machine
end

