-- ==== Sys2Proof/Machine/Ops.lean ====
section
/-! DEFINITION. The named operations over the state: its accessors and updates, the stack, the random draw, the fetch, the
program counter, and TAKING A FAULT as one shared operation (`raise`, spec/60_exceptions.md R202, R203). There is no return
from a fault (R213): only `Reset` leaves the halted state (`State.hostReset`, HostOps.lean). -/

namespace Sys2Proof.Machine

/-- The three outcomes of a step of this core. -/
abbrev Answer := Host.Outcome State Fault Refusal

/-! ### Updates, one per field or group of fields -/

/-- `V[x] <- b`. -/
def State.setV (s : State) (x : Reg) (b : Byte) : State := { s with v := s.v.set x.val b }

/-- All 16 registers at once. -/
def State.setAllV (s : State) (v : Vector Byte 16) : State := { s with v := v }

/-- `I <- w`. -/
def State.setI (s : State) (w : Word) : State := { s with i := w }

/-- `PC <- w`. -/
def State.setPc (s : State) (w : Word) : State := { s with pc := w }

/-- The stack's slots. -/
def State.setStack (s : State) (stack : Vector Word 16) : State := { s with stack := stack }

/-- `SP <- n`. -/
def State.setSp (s : State) (n : Fin 17) : State := { s with sp := n }

/-- `DT <- b`. -/
def State.setDt (s : State) (b : Byte) : State := { s with dt := b }

/-- `ST <- b`. -/
def State.setSt (s : State) (b : Byte) : State := { s with st := b }

/-- The frame buffer. -/
def State.setFb (s : State) (fb : Vector (Vector Bool 64) 32) : State := { s with fb := fb }

/-- `DIRTY <- d`. -/
def State.setDirty (s : State) (d : Bool) : State := { s with dirty := d }

/-- The key flags. -/
def State.setKeys (s : State) (key : Vector Bool 16) : State := { s with key := key }

/-- The memory. -/
def State.setMem (s : State) (m : Memory) : State := { s with mem := m }

/-- The four fault registers (R29). -/
def State.setFault (s : State) (cause : FaultCause) (pc word addr : Word) : State :=
  { s with faultCause := cause, faultPc := pc, faultWord := word, faultAddr := addr }

/-- The outputs of `Step` (R84). -/
def State.setOutput (s : State) (o : Option StepOutput) : State := { s with output := o }

/-- The result of `LoadProgram`. -/
def State.setLoadResult (s : State) (r : Option LoadResult) : State := { s with loadResult := r }

/-- The host's operations still to come. -/
def State.setSchedule (s : State) (ops : List Operation) : State := { s with schedule := ops }

/-- One random byte is consumed. -/
def State.countDraw (s : State) : State := { s with rndCount := s.rndCount + 1 }

/-! ### Reads -/

/-- `V[x]`. -/
def State.getV (s : State) (x : Reg) : Byte := s.v[x.val]

/-- `MEM[a]`, for an address that the caller has checked (R42). -/
def State.readByte (s : State) (a : Nat) : Byte := Memory.read s.mem a

/-- `STACK[k]`. -/
def State.slot (s : State) (k : Fin 16) : Word := s.stack[k.val]

/-- `KEY[k]`. -/
def State.pressed (s : State) (k : Key) : Bool := s.key[k.val]

/-- `FB[x, y]` (R25). -/
def State.pixel (s : State) (x : Col) (y : Row) : Bool := s.fb[y.val][x.val]

/-- The core is halted: `FAULT_CAUSE ≠ 0` (R204). -/
def State.halted (s : State) : Bool := s.faultCause != .none

/-! ### Memory, random bytes and the stack -/

/-- Bytes stored at ascending addresses from `a` on, all checked by the caller to be in range (R43, R45). -/
def State.storeBytes (s : State) (a : Nat) (vs : List Byte) : State := s.setMem (Memory.writeBytes s.mem a vs)

/-- `Rnd()`: the next byte of the random stream, a free value (R28, log 2). DESIGN CHOICE (log 17): every state draws from
the one stream `Config.rnd`, so two states with equal counts draw equal bytes; the spec says nothing of the bytes of
two core instances (R6, R28). -/
def State.rnd (s : State) : Byte := Config.rnd s.rndCount

/-- `Push(v)`: nothing when 16 entries are live (R20). -/
def State.push (s : State) (w : Word) : Option State :=
  if h : s.sp.val < 16 then some ((s.setStack (s.stack.set s.sp.val w)).setSp ⟨s.sp.val + 1, by omega⟩) else none

/-- `Pop()`: the newest entry, which its slot keeps, or nothing when none is live (R21). -/
def State.pop (s : State) : Option (Word × State) :=
  if h : s.sp.val = 0 then none
  else some (s.stack[s.sp.val - 1], s.setSp ⟨s.sp.val - 1, by omega⟩)

/-! ### How an instruction ends -/

/-- TAKING A FAULT (R202, R203): the four fault registers are written, nothing else changes, and the `Step` returns
`FAULT` with no redraw (R205). PC still holds the faulting instruction's address. -/
def raise (cause : FaultCause) (word addr : Word) (s : State) : Answer :=
  .next ((s.setFault cause s.pc word addr).setOutput (some ⟨.fault, false⟩))

/-- `stall`: nothing changes and the `Step` returns `STALLED` with no redraw (R80). -/
def stall (s : State) : Answer := .next (s.setOutput (some ⟨.stalled, false⟩))

/-- An integer brought to the 16 bits of a PC or return address. It fits in every instruction that a `Step` executes
(R17); the spec gives no rule for one that does not (log 8). -/
def onWord (n : Nat) (k : Word → Answer) : Answer :=
  if n < 0x10000 then k (BitVec.ofNat 16 n) else .fault .pcOverflow

/-- `PC <- n`, and the instruction is complete. -/
def goto (n : Nat) (s : State) : Answer := onWord n fun w => .next (s.setPc w)

/-- The default advance, `PC <- PC + 2` (R79). -/
def advance (s : State) : Answer := goto (s.pc.toNat + 2) s

/-- A skip: `PC <- PC + 4` on the condition, else `PC <- PC + 2` (R104 to R107). -/
def skipIf (c : Bool) (s : State) : Answer := goto (s.pc.toNat + (if c then 4 else 2)) s

/-- The answer with a function applied to the next state, if there is one. -/
def onNext (f : State → State) : Answer → Answer
  | .next s    => .next (f s)
  | .fault r   => .fault r
  | .refused r => .refused r

/-! ### The fetch -/

/-- `MemRead(PC, 2)`: the word at PC, high byte first, or the lowest out-of-range byte address (R44, R61, R77). -/
def State.fetch (s : State) : Except Nat Word :=
  if s.pc.toNat > 0xFFF then .error s.pc.toNat
  else if s.pc.toNat + 1 > 0xFFF then .error (s.pc.toNat + 1)
  else .ok (wordOfBytes (s.readByte s.pc.toNat) (s.readByte (s.pc.toNat + 1)))

end Sys2Proof.Machine
end

