-- ==== Sys2Proof/Machine/Flags.lean ====
section
/-! DEFINITION. Every flag VF is written with (spec/10_state.md R15), and the order in which flag and result are written
(spec/41_alu.md R120). The collision flag is computed by the drawing itself (Display.lean). -/

namespace Sys2Proof.Machine

/-- A flag as a byte: 0x01 or 0x00 (R15). -/
def flagByte (b : Bool) : Byte := if b then 1 else 0

/-- ADD_REG's flag: the unsigned sum exceeds 255 (R127). -/
def carry (a b : Byte) : Bool := a.toNat + b.toNat > 255

/-- The subtractions' flag: `a − b` needs no borrow (R128, R130). -/
def noBorrow (a b : Byte) : Bool := a.toNat ≥ b.toNat

/-- SHIFT_RIGHT's flag: the bit shifted out, bit 0 (R129). -/
def lowBit (a : Byte) : Bool := a.getLsbD 0

/-- SHIFT_LEFT's flag: the bit shifted out, bit 7 (R131). -/
def highBit (a : Byte) : Bool := a.getLsbD 7

/-- The flag is written to VF first and the result to `V[X]` second, so with X = 15 the result stands (R120, R134). -/
def State.setFlagged (s : State) (x : Reg) (flag : Bool) (result : Byte) : State :=
  (s.setV 15 (flagByte flag)).setV x result

end Sys2Proof.Machine
end

