-- ==== Sys2Proof/Machine/Alu.lean ====
section
/-! DEFINITION. Register load, arithmetic, logic, shifts and the random byte (spec/41_alu.md). Every one ends with the
default advance; operands are read before anything is written (R120). -/

namespace Sys2Proof.Machine

/-- SET_IMM (R121): `V[X] <- NN`. -/
def execSetImm (x : Reg) (nn : Byte) (s : State) : Answer := advance (s.setV x nn)

/-- ADD_IMM (R122): `V[X] <- (V[X] + NN) mod 256`, VF not written as a flag. -/
def execAddImm (x : Reg) (nn : Byte) (s : State) : Answer := advance (s.setV x (s.getV x + nn))

/-- SET_REG (R123): `V[X] <- V[Y]`. -/
def execSetReg (x y : Reg) (s : State) : Answer := advance (s.setV x (s.getV y))

/-- OR (R124): VF not written as a flag. -/
def execOrReg (x y : Reg) (s : State) : Answer := advance (s.setV x (s.getV x ||| s.getV y))

/-- AND (R125): VF not written as a flag. -/
def execAndReg (x y : Reg) (s : State) : Answer := advance (s.setV x (s.getV x &&& s.getV y))

/-- XOR (R126): VF not written as a flag. -/
def execXorReg (x y : Reg) (s : State) : Answer := advance (s.setV x (s.getV x ^^^ s.getV y))

/-- ADD_REG (R127): VF is the carry, then `V[X] <- (V[X] + V[Y]) mod 256`. -/
def execAddReg (x y : Reg) (s : State) : Answer :=
  advance (s.setFlagged x (carry (s.getV x) (s.getV y)) (s.getV x + s.getV y))

/-- SUB_REG (R128): VF is 1 iff `V[X] ≥ V[Y]`, then `V[X] <- (V[X] − V[Y]) mod 256`. -/
def execSubReg (x y : Reg) (s : State) : Answer :=
  advance (s.setFlagged x (noBorrow (s.getV x) (s.getV y)) (s.getV x - s.getV y))

/-- SHIFT_RIGHT (R129): of `V[X]` in place, Y ignored; VF is the old bit 0. -/
def execShiftRight (x _y : Reg) (s : State) : Answer :=
  advance (s.setFlagged x (lowBit (s.getV x)) (s.getV x >>> 1))

/-- SUB_REVERSE (R130): VF is 1 iff `V[Y] ≥ V[X]`, then `V[X] <- (V[Y] − V[X]) mod 256`. -/
def execSubReverse (x y : Reg) (s : State) : Answer :=
  advance (s.setFlagged x (noBorrow (s.getV y) (s.getV x)) (s.getV y - s.getV x))

/-- SHIFT_LEFT (R131): of `V[X]` in place, Y ignored; VF is the old bit 7. -/
def execShiftLeft (x _y : Reg) (s : State) : Answer :=
  advance (s.setFlagged x (highBit (s.getV x)) (s.getV x <<< 1))

/-- RANDOM (R132): one draw is consumed and `V[X] <- draw & NN`. -/
def execRandom (x : Reg) (nn : Byte) (s : State) : Answer := advance ((s.setV x (s.rnd &&& nn)).countDraw)

end Sys2Proof.Machine
end

