-- ==== Sys2Proof/Machine/Operands.lean ====
section
/-! DEFINITION. The operand forms that need a check or a computation: the data range at `I` (spec/20_memory.md R45,
spec/42_index_memory.md R140), the key or digit index (spec/44_keys_timers.md R170, spec/42_index_memory.md R143), the
decimal digits (R144) and the sprite's pixels (spec/43_display.md R160). Register and immediate operands are read with
`State.getV` and used as they stand (R64). -/

namespace Sys2Proof.Machine

/-- `CheckRange(addr, len)`: the lowest out-of-range address of the range, if there is one (R45). -/
def checkRange (addr len : Nat) : Option Nat :=
  if len > 0 ∧ addr + len - 1 > 0xFFF then some (max addr 0x1000) else none

/-- The `len` bytes at `I` are checked before the first access; an instruction whose range leaves memory takes
`OutOfBoundsAccess` and has no other effect (R45, R147, R203). -/
def withRange (len : Nat) (word : Word) (s : State) (k : Answer) : Answer :=
  match checkRange s.i.toNat len with
  | some a => raise .outOfBoundsAccess word (BitVec.ofNat 16 a) s
  | none   => k

/-- The value of `V[X]` as an index into the 16 keys or the 16 glyphs; a value above 15 takes `OutOfBoundsAccess` with the
value as the fault's address (R143, R170, R203). -/
def withIndex (x : Reg) (word : Word) (s : State) (k : Fin 16 → Answer) : Answer :=
  if h : (s.getV x).toNat < 16 then k ⟨(s.getV x).toNat, h⟩
  else raise .outOfBoundsAccess word ((s.getV x).zeroExtend 16) s

/-- The bytes at `a`, `a + 1`, …, `a + len − 1`. -/
def State.readBytes (s : State) (a len : Nat) : List Byte := (List.range len).map fun k => s.readByte (a + k)

/-- The three decimal digits of a byte: hundreds, tens, ones (R144). -/
def bcdDigits (b : Byte) : List Byte :=
  [BitVec.ofNat 8 (b.toNat / 100), BitVec.ofNat 8 (b.toNat / 10 % 10), BitVec.ofNat 8 (b.toNat % 10)]

/-- The column of bit index `c` of a sprite at `x0` (R160). -/
def spriteCol (x0 : Byte) (c : Nat) : Col := Fin.ofNat 64 (x0.toNat + c)

/-- The row of row `r` of a sprite at `y0` (R160). -/
def spriteRow (y0 : Byte) (r : Nat) : Row := Fin.ofNat 32 (y0.toNat + r)

/-- The columns of the 1 bits of one sprite row, most significant bit first (R160). -/
def rowCols (x0 : Byte) (bits : Byte) : List Col :=
  ((List.range 8).filter fun c => bits.getLsbD (7 - c)).map (spriteCol x0)

/-- The pixels of the 1 bits of a sprite at (`x0`, `y0`), its rows from number `r` on, top row first (R160, R162). -/
def spritePixels (x0 y0 : Byte) : Nat → List Byte → List (Col × Row)
  | _, []           => []
  | r, bits :: rows => (rowCols x0 bits).map (fun c => (c, spriteRow y0 r)) ++ spritePixels x0 y0 (r + 1) rows

end Sys2Proof.Machine
end

