-- ==== Sys2Proof/Machine/Display.lean ====
section
/-! DEFINITION. The display instructions (spec/43_display.md): CLEAR, and DRAW_SPRITE as the loop of R162 over the 1 bits of
the sprite, in the rule's order (which R163 shows cannot matter). -/

namespace Sys2Proof.Machine

/-- The locals of DRAW_SPRITE's loop: the frame buffer so far, `collision` and `changed` (R162). -/
structure Drawing where
  fb        : Vector (Vector Bool 64) 32
  collision : Bool
  changed   : Bool
  deriving DecidableEq, Repr

/-- The frame buffer with every pixel clear. -/
def blankFrame : Vector (Vector Bool 64) 32 := Vector.replicate 32 (Vector.replicate 64 false)

/-- One 1 bit of the sprite: a set pixel collides, and the pixel is inverted (R162). -/
def drawPixel (d : Drawing) (p : Col × Row) : Drawing where
  fb := d.fb.set p.2.val (d.fb[p.2.val].set p.1.val (!d.fb[p.2.val][p.1.val]))
  collision := d.collision || d.fb[p.2.val][p.1.val]
  changed := true

/-- The whole loop, over the pixels of the sprite's 1 bits in order. -/
def drawPixels (d : Drawing) : List (Col × Row) → Drawing
  | []      => d
  | p :: ps => drawPixels (drawPixel d p) ps

/-- The writes after the loop: FB, `VF <- collision`, and `DIRTY <- 1` if a pixel changed (R162). -/
def State.finishDrawing (s : State) (d : Drawing) : State :=
  ((s.setFb d.fb).setV 15 (flagByte d.collision)).setDirty (s.dirty || d.changed)

/-- CLEAR (R161): every pixel 0, `DIRTY <- 1` always. -/
def execClear (s : State) : Answer := advance ((s.setFb blankFrame).setDirty true)

/-- DRAW_SPRITE (R162): the N bytes at `I` drawn at (`V[X]`, `V[Y]`), origin read before VF is written. -/
def execDrawSprite (x y : Reg) (n : Fin 16) (s : State) : Answer :=
  withRange n.val (encode (.drawSprite x y n)) s
    (advance (s.finishDrawing (drawPixels ⟨s.fb, false, false⟩
      (spritePixels (s.getV x) (s.getV y) 0 (s.readBytes s.i.toNat n.val)))))

end Sys2Proof.Machine
end

