-- ==== Sys2Proof/Machine/Flow.lean ====
section
/-! DEFINITION. Control transfer (spec/40_flow.md): return, jump, call, jump with offset and the four skips on registers.
No target is checked (R108). -/

namespace Sys2Proof.Machine

/-- RETURN (R100): `PC <- Pop()`; `StackUnderflow` when the stack is empty (R208). -/
def execRet (s : State) : Answer :=
  match s.pop with
  | none        => raise .stackUnderflow (encode .ret) 0 s
  | some (w, t) => .next (t.setPc w)

/-- JUMP (R101): `PC <- NNN`, no further advance. -/
def execJump (nnn : Addr12) (s : State) : Answer := goto nnn.toNat s

/-- CALL (R102): `Push(PC + 2); PC <- NNN`; `StackOverflow` when the stack is full (R207). -/
def execCall (nnn : Addr12) (s : State) : Answer :=
  onWord (s.pc.toNat + 2) fun ret =>
    match s.push ret with
    | none   => raise .stackOverflow (encode (.call nnn)) 0 s
    | some t => goto nnn.toNat t

/-- SKIP_EQ_IMM (R104). -/
def execSkipEqImm (x : Reg) (nn : Byte) (s : State) : Answer := skipIf (s.getV x == nn) s

/-- SKIP_NEQ_IMM (R105). -/
def execSkipNeqImm (x : Reg) (nn : Byte) (s : State) : Answer := skipIf (s.getV x != nn) s

/-- SKIP_EQ_REG (R106). -/
def execSkipEqReg (x y : Reg) (s : State) : Answer := skipIf (s.getV x == s.getV y) s

/-- SKIP_NEQ_REG (R107). -/
def execSkipNeqReg (x y : Reg) (s : State) : Answer := skipIf (s.getV x != s.getV y) s

/-- JUMP_OFFSET (R103): `PC <- NNN + V[0]`, not reduced modulo 4096. -/
def execJumpOffset (nnn : Addr12) (s : State) : Answer := goto (nnn.toNat + (s.getV 0).toNat) s

end Sys2Proof.Machine
end

