-- ==== Sys2Proof/Machine/IndexMemory.lean ====
section
/-! DEFINITION. The index register and the memory instructions (spec/42_index_memory.md). `I` is changed by SET_INDEX,
ADD_TO_INDEX and FONT_CHAR_ADDRESS only; the whole range is checked before the first access (R147). -/

namespace Sys2Proof.Machine

/-- SET_INDEX (R141): `I <- NNN`. -/
def execSetIndex (nnn : Addr12) (s : State) : Answer := advance (s.setI (nnn.zeroExtend 16))

/-- ADD_TO_INDEX (R142): `I <- (I + V[X]) mod 65536`, VF not written. -/
def execAddToIndex (x : Reg) (s : State) : Answer := advance (s.setI (s.i + (s.getV x).zeroExtend 16))

/-- FONT_CHAR_ADDRESS (R143): `I <- FONT_BASE + 5·V[X]` for a digit, `OutOfBoundsAccess` above 15. -/
def execFontCharAddress (x : Reg) (s : State) : Answer :=
  withIndex x (encode (.fontCharAddress x)) s fun d =>
    advance (s.setI (BitVec.ofNat 16 (Config.fontBase + 5 * d.val)))

/-- BCD (R144): the three decimal digits of `V[X]` at `I`, `I + 1`, `I + 2`. -/
def execBcd (x : Reg) (s : State) : Answer :=
  withRange 3 (encode (.bcd x)) s (advance (s.storeBytes s.i.toNat (bcdDigits (s.getV x))))

/-- REGISTER_DUMP (R145): `MEM[I..I+X] <- V[0..X]`, `I` unchanged. -/
def execRegisterDump (x : Reg) (s : State) : Answer :=
  withRange (x.val + 1) (encode (.registerDump x)) s
    (advance (s.storeBytes s.i.toNat (s.v.toList.take (x.val + 1))))

/-- REGISTER_LOAD (R146): `V[0..X] <- MEM[I..I+X]`, `I` unchanged. -/
def execRegisterLoad (x : Reg) (s : State) : Answer :=
  withRange (x.val + 1) (encode (.registerLoad x)) s
    (advance (s.setAllV (Vector.ofFn fun k =>
      if k.val ≤ x.val then s.readByte (s.i.toNat + k.val) else s.getV k)))

end Sys2Proof.Machine
end

