-- ==== Sys2Proof/Machine/KeysTimers.lean ====
section
/-! DEFINITION. The key and timer instructions (spec/44_keys_timers.md). -/

namespace Sys2Proof.Machine

/-- The least key that is pressed, if any (R174). -/
def State.leastPressed (s : State) : Option Key := (List.finRange 16).find? s.pressed

/-- A key's number as a byte, 0x00 to 0x0F. -/
def keyByte (k : Key) : Byte := BitVec.ofNat 8 k.val

/-- SKIP_KEY_PRESSED (R171): `OutOfBoundsAccess` for a key number above 15 (R170). -/
def execSkipKeyPressed (x : Reg) (s : State) : Answer :=
  withIndex x (encode (.skipKeyPressed x)) s fun k => skipIf (s.pressed k) s

/-- SKIP_KEY_NOT_PRESSED (R172): `OutOfBoundsAccess` for a key number above 15 (R170). -/
def execSkipKeyNotPressed (x : Reg) (s : State) : Answer :=
  withIndex x (encode (.skipKeyNotPressed x)) s fun k => skipIf (!s.pressed k) s

/-- GET_DELAY (R173): `V[X] <- DT`. -/
def execGetDelay (x : Reg) (s : State) : Answer := advance (s.setV x s.dt)

/-- WAIT_KEY (R174): stalls while no key is pressed, else `V[X]` gets the least pressed key. -/
def execWaitKey (x : Reg) (s : State) : Answer :=
  match s.leastPressed with
  | none   => stall s
  | some k => advance (s.setV x (keyByte k))

/-- SET_DELAY (R175): `DT <- V[X]`. -/
def execSetDelay (x : Reg) (s : State) : Answer := advance (s.setDt (s.getV x))

/-- SET_SOUND (R176): `ST <- V[X]`. -/
def execSetSound (x : Reg) (s : State) : Answer := advance (s.setSt (s.getV x))

end Sys2Proof.Machine
end

