-- ==== Sys2Proof/Machine/HostOps.lean ====
section
/-! DEFINITION. The operations that are not the Execution Cycle: the Timer Tick (spec/60_exceptions.md R215), a key write
(spec/10_state.md R27), LoadProgram (spec/70_reset_and_hazards.md R244, R245) and Reset (R240, R241, R243). -/

namespace Sys2Proof.Machine

/-- A timer's next value: one less, and 0 stays 0 (R215). -/
def timerDown (b : Byte) : Byte := if b.toNat > 0 then b - 1 else b

/-- `Tick` (R215): the two timers, each on its own, and nothing else; the same in every state (R217). -/
def State.tick (s : State) : State := (s.setDt (timerDown s.dt)).setSt (timerDown s.st)

/-- The host writes one key flag (R27, R220). -/
def State.writeKey (s : State) (k : Key) (pressed : Bool) : State := s.setKeys (s.key.set k.val pressed)

/-- `LoadProgram(bytes)` (R244, R245): the bytes are copied from 0x200 on, or `ProgramTooLarge` and nothing is copied. -/
def State.loadProgram (s : State) (bytes : List Byte) : State :=
  if bytes.length ≤ Config.progMax then (s.storeBytes Config.progBase bytes).setLoadResult (some .loaded)
  else s.setLoadResult (some .programTooLarge)

/-- `Reset` (R240, R241) in every state. The host's own side, its operations still to come and the random bytes already
drawn, is no state of the core and stays (R241, log 5). -/
def State.hostReset (s : State) : State :=
  { State.reset with schedule := s.schedule, rndCount := s.rndCount }

end Sys2Proof.Machine
end

