-- ==== Sys2Proof/Machine/Cycle.lean ====
section
/-! DEFINITION. The Execution Cycle `Step` (spec/30_encoding.md R75 to R84), the operation the host invokes next
(spec/00_scope.md R1 to R3), and where the next instruction is placed for a fetch. -/

namespace Sys2Proof.Machine

/-- The end of a `Step` (R81): one that neither stalled nor faulted returns `OK` with DIRTY as the redraw signal, and DIRTY
is cleared. A stall or a fault has written the outputs already (R80, R82). -/
def State.endStep (s : State) : State :=
  match s.output with
  | none   => (s.setOutput (some ⟨.ok, s.dirty⟩)).setDirty false
  | some _ => s

/-- `Step` (R75): halted cores change nothing (R76); fetch, decode, execute in this order, the first fault ends it (R77,
R78, R210); then the redraw report. -/
def executionCycle (s : State) : Answer :=
  if s.halted then .next (s.setOutput (some ⟨.fault, false⟩))
  else
    match s.fetch with
    | .error a => raise .outOfBoundsAccess 0 (BitVec.ofNat 16 a) s
    | .ok w =>
      match decodeWord w with
      | .error _ => raise .unknownOpcode w 0 s
      | .ok i    => onNext State.endStep (exec i (s.setOutput none))

/-- One operation of the host (R1, R2). Reading the frame buffer has no effect (R221). -/
def perform (op : Operation) (s : State) : Answer :=
  match op with
  | .step              => executionCycle s
  | .tick              => .next s.tick
  | .writeKey k b      => .next (s.writeKey k b)
  | .readFrame         => .next s
  | .loadProgram bytes => .next (s.loadProgram bytes)
  | .reset             => .next s.hostReset

/-- The next operation: the first of the schedule, or `Step` when the host has scheduled nothing (log 5). -/
def nextOperation (s : State) : Answer :=
  match s.schedule with
  | []        => executionCycle s
  | op :: ops => perform op (s.setSchedule ops)

/-- Where the fetch can read an instruction: PC, or 0x200 when PC is out of the fetch's range. -/
def State.fetchablePc (s : State) : Word := if s.pc.toNat ≤ 0xFFE then s.pc else 0x0200

/-- The state with a word, numbered as the opcode table numbers it, stored high byte first where the next instruction is
fetched; a halted core is set running and the schedule emptied, so that the very next step runs it (log 9). -/
def State.placeWord (s : State) (nbits w : Nat) : State :=
  { s with
    mem := Memory.writeBytes s.mem s.fetchablePc.toNat [highByte (tableWord nbits w), lowByte (tableWord nbits w)]
    pc := s.fetchablePc
    faultCause := .none
    schedule := [] }

end Sys2Proof.Machine
end

