-- ==== Sys2Proof/Machine/Step.lean ====
section
/-! DEFINITION. One step of the machine: the next operation of the host, which is `Step` unless another is scheduled. -/

namespace Sys2Proof.Machine

/-- One atomic operation (spec/00_scope.md R2). -/
def step (s : State) : Host.Outcome State Fault Refusal := nextOperation s

/-- `s` with an instruction stored where the next step fetches it (log 9). -/
def State.withFetchWord (s : State) (nbits w : Nat) : State := s.placeWord nbits w

end Sys2Proof.Machine
end

