-- ==== Sys2Proof/Safety.lean ====
section
/-! DEFINITION. The terms the claims are made in: when a `Step` gets to execute an instruction, what a next state leaves
unchanged, a fault taken precisely, a sprite's inverted pixels, and the invariant of the states reachable from `Reset`. -/

namespace Sys2Proof.Machine

/-- The state in which a `Step` comes to execute an instruction: the core is not halted (R76) and PC is one that the fetch
accepts (R77). No instruction is executed in any other state. -/
abbrev State.Running (s : State) : Prop := s.faultCause = .none ∧ s.pc.toNat ≤ 0xFFE

/-- The host's next operation is `Step`: the first of the schedule, or the schedule is empty (log 5). -/
abbrev State.StepDue (s : State) : Prop := s.schedule.headD .step = .step

/-- The pieces of state, as the summary table of spec/10_state.md lists them, and the model's own four. -/
inductive Part where
  | mem | v | i | pc | stack | sp | dt | st | fb | dirty | key | fault
  | rnd | output | load | schedule
  deriving DecidableEq, Repr

/-- A piece of state reads the same in both states: memory byte by byte, the other arrays entry by entry. -/
def Part.same : Part → State → State → Prop
  | .mem, s, t      => ∀ a, t.readByte a = s.readByte a
  | .v, s, t        => ∀ k, t.getV k = s.getV k
  | .i, s, t        => t.i = s.i
  | .pc, s, t       => t.pc = s.pc
  | .stack, s, t    => ∀ k, t.slot k = s.slot k
  | .sp, s, t       => t.sp = s.sp
  | .dt, s, t       => t.dt = s.dt
  | .st, s, t       => t.st = s.st
  | .fb, s, t       => ∀ x y, t.pixel x y = s.pixel x y
  | .dirty, s, t    => t.dirty = s.dirty
  | .key, s, t      => ∀ k, t.pressed k = s.pressed k
  | .fault, s, t    => t.faultCause = s.faultCause ∧ t.faultPc = s.faultPc ∧ t.faultWord = s.faultWord ∧
                        t.faultAddr = s.faultAddr
  | .rnd, s, t      => t.rndCount = s.rndCount
  | .output, s, t   => t.output = s.output
  | .load, s, t     => t.loadResult = s.loadResult
  | .schedule, s, t => t.schedule = s.schedule

/-- Nothing but the listed pieces of state differs between `s` and `t`: the FRAME of a change. -/
def OnlyChanges (parts : List Part) (s t : State) : Prop := ∀ p, p ∉ parts → p.same s t

/-- `exec` answers a next state, and it has the property. -/
def Completes (i : Instr) (s : State) (P : State → Prop) : Prop := ∃ t, exec i s = .next t ∧ P t

/-- One operation answers a next state, and it has the property. -/
def StepsTo (s : State) (P : State → Prop) : Prop := ∃ t, step s = .next t ∧ P t

/-- `n` is the one word that decodes to the instruction. -/
def EncodedAs (i : Instr) (n : Nat) : Prop := ∀ w : Word, decodeWord w = .ok i ↔ w.toNat = n

/-- The default advance (R79). -/
def Advanced (s t : State) : Prop := t.pc.toNat = s.pc.toNat + 2

/-- `V[x]` becomes `n`, PC advances by 2 and nothing else changes. -/
def SetsRegister (x : Reg) (n : Nat) (s t : State) : Prop :=
  (t.getV x).toNat = n ∧ (∀ k, k ≠ x → t.getV k = s.getV k) ∧ Advanced s t ∧ OnlyChanges [.v, .pc] s t

/-- `V[x]` becomes `n` and VF, unless it is `V[x]` itself, becomes the flag, 1 or 0; PC advances by 2 and nothing else
changes. -/
def SetsFlagged (x : Reg) (flag : Prop) (n : Nat) (s t : State) : Prop :=
  (t.getV x).toNat = n ∧
  (x ≠ 15 → (flag → t.getV 15 = 1) ∧ (¬ flag → t.getV 15 = 0)) ∧
  (∀ k, k ≠ x → k ≠ 15 → t.getV k = s.getV k) ∧ Advanced s t ∧ OnlyChanges [.v, .pc] s t

/-- PC advances by 4 if the condition holds and by 2 if not, and nothing else changes. -/
def Skips (c : Prop) (s t : State) : Prop :=
  (c → t.pc.toNat = s.pc.toNat + 4) ∧ (¬ c → t.pc.toNat = s.pc.toNat + 2) ∧ OnlyChanges [.pc] s t

/-- A fault is taken: the four fault registers hold the cause, PC, the word and the address, the `Step` returns `FAULT`
with no redraw, and nothing else changes (R202, R203, R205). -/
def FaultTaken (cause : FaultCause) (word : Word) (addr : Nat) (s t : State) : Prop :=
  t.faultCause = cause ∧ t.faultPc = s.pc ∧ t.faultWord = word ∧ t.faultAddr.toNat = addr ∧
  t.output = some ⟨.fault, false⟩ ∧ OnlyChanges [.fault, .output] s t

/-- The `len` bytes at `I` lie in memory (R45). -/
abbrev State.RangeOk (s : State) (len : Nat) : Prop := len = 0 ∨ s.i.toNat + len ≤ 0x1000

/-- DRAW_SPRITE's sprite has a 1 bit whose pixel is (`px`, `py`) (R160, R162). -/
abbrev State.SpriteHas (s : State) (x y : Reg) (n : Fin 16) (px : Col) (py : Row) : Prop :=
  ∃ r : Fin 15, ∃ c : Fin 8, r.val < n.val ∧
    px.val = ((s.getV x).toNat + c.val) % 64 ∧ py.val = ((s.getV y).toNat + r.val) % 32 ∧
    (s.readByte (s.i.toNat + r.val)).getLsbD (7 - c.val) = true

end Sys2Proof.Machine

namespace Sys2Proof

open Sys2Proof.Machine (Part)

/-- What an instruction may write besides PC: the column "Written by" of the summary table of spec/10_state.md, and the
draw of RANDOM. -/
def Instr.writes : Instr → List Part
  | .clear               => [.fb, .dirty]
  | .ret                 => [.sp]
  | .jump _              => []
  | .call _              => [.stack, .sp]
  | .skipEqImm _ _       => []
  | .skipNeqImm _ _      => []
  | .skipEqReg _ _       => []
  | .setImm _ _          => [.v]
  | .addImm _ _          => [.v]
  | .setReg _ _          => [.v]
  | .orReg _ _           => [.v]
  | .andReg _ _          => [.v]
  | .xorReg _ _          => [.v]
  | .addReg _ _          => [.v]
  | .subReg _ _          => [.v]
  | .shiftRight _ _      => [.v]
  | .subReverse _ _      => [.v]
  | .shiftLeft _ _       => [.v]
  | .skipNeqReg _ _      => []
  | .setIndex _          => [.i]
  | .jumpOffset _        => []
  | .random _ _          => [.v, .rnd]
  | .drawSprite _ _ _    => [.fb, .v, .dirty]
  | .skipKeyPressed _    => []
  | .skipKeyNotPressed _ => []
  | .getDelay _          => [.v]
  | .waitKey _           => [.v]
  | .setDelay _          => [.dt]
  | .setSound _          => [.st]
  | .addToIndex _        => [.i]
  | .fontCharAddress _   => [.i]
  | .bcd _               => [.mem]
  | .registerDump _      => [.mem]
  | .registerLoad _      => [.v]

/-- The instructions that write VF as a flag (R15). -/
def Instr.writesFlag : Instr → Bool
  | .addReg _ _ | .subReg _ _ | .shiftRight _ _ | .subReverse _ _ | .shiftLeft _ _ | .drawSprite _ _ _ => true
  | .clear | .ret | .jump _ | .call _ | .skipEqImm _ _ | .skipNeqImm _ _ | .skipEqReg _ _ | .skipNeqReg _ _
  | .setImm _ _ | .addImm _ _ | .setReg _ _ | .orReg _ _ | .andReg _ _ | .xorReg _ _ | .setIndex _ | .jumpOffset _
  | .random _ _ | .skipKeyPressed _ | .skipKeyNotPressed _ | .getDelay _ | .waitKey _ | .setDelay _ | .setSound _
  | .addToIndex _ | .fontCharAddress _ | .bcd _ | .registerDump _ | .registerLoad _ => false

/-- The registers an instruction names as its destination (R15): X, or V0 to VX for REGISTER_LOAD. -/
def Instr.destination : Instr → Reg → Bool
  | .setImm x _, k | .addImm x _, k | .setReg x _, k | .orReg x _, k | .andReg x _, k | .xorReg x _, k
  | .addReg x _, k | .subReg x _, k | .shiftRight x _, k | .subReverse x _, k | .shiftLeft x _, k
  | .random x _, k | .getDelay x, k | .waitKey x, k => k == x
  | .registerLoad x, k => k ≤ x
  | .clear, _ | .ret, _ | .jump _, _ | .call _, _ | .skipEqImm _ _, _ | .skipNeqImm _ _, _ | .skipEqReg _ _, _
  | .skipNeqReg _ _, _ | .setIndex _, _ | .jumpOffset _, _ | .drawSprite _ _ _, _ | .skipKeyPressed _, _
  | .skipKeyNotPressed _, _ | .setDelay _, _ | .setSound _, _ | .addToIndex _, _ | .fontCharAddress _, _
  | .bcd _, _ | .registerDump _, _ => false

end Sys2Proof

namespace Sys2Proof.Machine

/-- Several instructions executed one after the other, up to the first that does not answer a next state. -/
def execAll : List Instr → State → Answer
  | [], s => .next s
  | i :: is, s =>
    match exec i s with
    | .next t    => execAll is t
    | .fault r   => .fault r
    | .refused r => .refused r

/-- The invariant of the states between operations (R26, R29, R31, R203, R205): memory in canonical form; DIRTY 0; PC at most
0x10FE; every live return address at most 0x1000; the fault registers 0 while running, and while halted FAULT_PC is
PC and the latest `Step` returned `FAULT`. -/
abbrev State.Inv (s : State) : Prop :=
  Memory.wf s.mem = true ∧ s.dirty = false ∧ s.pc.toNat ≤ 0x10FE ∧
  (∀ k : Fin 16, k.val < s.sp.val → (s.slot k).toNat ≤ 0x1000) ∧
  (s.faultCause = .none → s.faultPc = 0 ∧ s.faultWord = 0 ∧ s.faultAddr = 0) ∧
  (s.faultCause ≠ .none → s.faultPc = s.pc ∧ s.output = some ⟨.fault, false⟩)

end Sys2Proof.Machine
end

