-- ==== Sys2Proof/Certificates/Slice0/Obligations.lean ====
section
/-! DEFINITION. The statements for the provers, from the numbered rules of spec/. `Completes`, `StepsTo`, `OnlyChanges` and
the other terms they are made in stand in Safety.lean. -/

open Sys2Proof Sys2Proof.Machine

/-! ### Encoding (spec/30_encoding.md) -/

/-- R60 to R72: no bit of an instruction is dropped by its encoding. -/
def Obligations.DecodeOfEncodeIsIdentity : Prop :=
  ∀ i : Instr, decodeWord (encode i) = .ok i

/-- R65, R73: each word has at most one meaning, and the instruction read from a word encodes to that word. -/
def Obligations.EncodeOfDecodeIsIdentity : Prop :=
  ∀ (w : Word) (i : Instr), decodeWord w = .ok i → encode i = w

/-- R65: the table has 34 rows; a word selects an instruction iff `(w & mask) = match` for that instruction's row, the
instruction belongs to that row, no word selects two rows, and a word that matches no row is an unknown opcode. -/
def Obligations.DecodeSelectsTheMatchingRow : Prop :=
  opcodeTable.length = 34 ∧ opcodeTable.Nodup ∧
  (∀ w : Word, (∃ i, decodeWord w = .ok i) ↔ ∃ r ∈ opcodeTable, w &&& r.mask = r.mtch) ∧
  (∀ w : Word, (∀ r ∈ opcodeTable, w &&& r.mask ≠ r.mtch) → decodeWord w = .error (.unknownOpcode w)) ∧
  (∀ (w : Word) (i : Instr), decodeWord w = .ok i → i.row ∈ opcodeTable ∧ w &&& i.row.mask = i.row.mtch) ∧
  (∀ (w : Word), ∀ r ∈ opcodeTable, ∀ q ∈ opcodeTable,
    w &&& r.mask = r.mtch → w &&& q.mask = q.mtch → r = q)

/-- R66 to R71: the unknown words, family by family; decoding one names it. -/
def Obligations.UnknownWordsByFamily : Prop :=
  ∀ w : Word, decodeWord w = .error (.unknownOpcode w) ↔
    (fieldOp w = 0x0 ∧ w ≠ 0x00E0 ∧ w ≠ 0x00EE) ∨
    ((fieldOp w = 0x5 ∨ fieldOp w = 0x9) ∧ fieldN w ≠ 0) ∨
    (fieldOp w = 0x8 ∧ (fieldN w).val ∈ [0x8, 0x9, 0xA, 0xB, 0xC, 0xD, 0xF]) ∨
    (fieldOp w = 0xE ∧ fieldNN w ≠ 0x9E ∧ fieldNN w ≠ 0xA1) ∨
    (fieldOp w = 0xF ∧ (fieldNN w).toNat ∉ [0x07, 0x0A, 0x15, 0x18, 0x1E, 0x29, 0x33, 0x55, 0x65])

/-- Sanity: words written out bit by bit from spec/30_encoding.md section 3 decode to the instructions they stand for. -/
def Obligations.WrittenOutWordsDecode : Prop :=
  decodeWord 0b0000000011100000 = .ok .clear ∧
  decodeWord 0b0010111111111111 = .ok (.call 0xFFF) ∧
  decodeWord 0b0011101001000010 = .ok (.skipEqImm 10 0x42) ∧
  decodeWord 0b1000101010110100 = .ok (.addReg 10 11) ∧
  decodeWord 0b1101000100100011 = .ok (.drawSprite 1 2 3) ∧
  decodeWord 0b1110100110011110 = .ok (.skipKeyPressed 9) ∧
  decodeWord 0b1111000101100101 = .ok (.registerLoad 1)

/-! ### The Execution Cycle (spec/30_encoding.md section 6) -/

/-- R75: when `Step` is the next operation, the core is not halted and the word at PC decodes to `i`, the step is
`exec i`, with the outputs of the previous `Step` forgotten before it and the redraw report made after it; the operation
is taken off the schedule. -/
def Obligations.StepRunsTheDecodedInstruction : Prop :=
  ∀ (s : State) (w : Word) (i : Instr), s.StepDue → s.faultCause = .none → s.fetch = .ok w → decodeWord w = .ok i →
    step s = onNext State.endStep (exec i ((s.setSchedule s.schedule.tail).setOutput none))

/-- R81: at the end of a `Step` that neither stalled nor faulted, DIRTY is returned as the redraw signal and cleared; one that
stalled or faulted keeps the outputs it has; nothing else changes. -/
def Obligations.StepEndReportsRedraw : Prop :=
  ∀ s : State,
    (s.output = none → s.endStep.output = some ⟨.ok, s.dirty⟩ ∧ s.endStep.dirty = false) ∧
    (s.output ≠ none → s.endStep.output = s.output ∧ s.endStep.dirty = s.dirty) ∧
    OnlyChanges [.output, .dirty] s s.endStep

/-- R44, R46, R61: the fetch is big-endian, at odd and even PC alike, and R77: it fails exactly above 0xFFE, with the lowest
out-of-range byte address. -/
def Obligations.FetchReadsTwoBytesHighFirst : Prop :=
  ∀ s : State,
    (s.pc.toNat ≤ 0xFFE → ∃ w, s.fetch = .ok w ∧
      w.toNat = (s.readByte s.pc.toNat).toNat * 256 + (s.readByte (s.pc.toNat + 1)).toNat) ∧
    (0xFFE < s.pc.toNat → s.fetch = .error (max s.pc.toNat 0x1000))

/-- R77, R203, R209(a) (decisions D5, D6): a `Step` at a PC above 0xFFE takes `OutOfBoundsAccess`, with no word and the lowest
out-of-range address. -/
def Obligations.StepFaultsWhenFetchLeavesMemory : Prop :=
  ∀ s : State, s.StepDue → s.faultCause = .none → 0xFFE < s.pc.toNat →
    StepsTo s fun t => t.schedule = s.schedule.tail ∧
      FaultTaken .outOfBoundsAccess 0 (max s.pc.toNat 0x1000) (s.setSchedule s.schedule.tail) t

/-- R71, R78, R206 (decision D6 for what stays unchanged): a `Step` at a word that is no instruction takes `UnknownOpcode`
with the word and PC recorded; the word is never a no-op. -/
def Obligations.StepFaultsOnUnknownOpcode : Prop :=
  ∀ (s : State) (w : Word), s.StepDue → s.Running → s.fetch = .ok w → (∀ i, decodeWord w ≠ .ok i) →
    StepsTo s fun t => t.schedule = s.schedule.tail ∧
      FaultTaken .unknownOpcode w 0 (s.setSchedule s.schedule.tail) t

/-- R76, R204 (decision D3): a `Step` of a halted core returns `FAULT` with no redraw and changes nothing. -/
def Obligations.HaltedStepChangesNothing : Prop :=
  ∀ s : State, s.StepDue → s.faultCause ≠ .none →
    StepsTo s fun t => t.output = some ⟨.fault, false⟩ ∧ t.schedule = s.schedule.tail ∧
      OnlyChanges [.output, .schedule] s t

/-- R204, R213 (decisions D3, D31): whatever operation comes, a halted core stays halted with the same fault registers,
unless it is `Reset`. -/
def Obligations.OnlyResetEndsTheHaltedState : Prop :=
  ∀ s t : State, s.faultCause ≠ .none → step s = .next t → s.schedule.head? ≠ some .reset →
    Part.same .fault s t

/-- R202 (decision D6), R212: a `Step` that raises a fault, in whatever instruction, changes nothing but the fault registers;
FAULT_PC is the address of the faulting instruction, and the `Step` returns `FAULT` with no redraw (R205). -/
def Obligations.FaultingStepIsPrecise : Prop :=
  ∀ s t : State, s.StepDue → s.faultCause = .none → step s = .next t → t.faultCause ≠ .none →
    OnlyChanges [.fault, .output, .schedule] s t ∧ t.faultPc = s.pc ∧ t.output = some ⟨.fault, false⟩

/-- R17, R31 (decision D30): every operation in every state answers a next state: PC arithmetic leaves 16 bits in no
instruction that a `Step` executes. -/
def Obligations.EveryStepAnswersANextState : Prop :=
  ∀ s : State, ∃ t, step s = .next t

/-- R81, R165: `redraw = 1` iff the instruction executed was CLEAR, or a DRAW_SPRITE that did not fault and has a non-zero
byte; DIRTY is 0 after the `Step` (R26). -/
def Obligations.RedrawIffClearOrDrawnPixel : Prop :=
  ∀ (s : State) (w : Word) (i : Instr), s.StepDue → s.Running → s.dirty = false → s.fetch = .ok w →
    decodeWord w = .ok i →
    StepsTo s fun t => t.dirty = false ∧
      ((∃ st, t.output = some ⟨st, true⟩) ↔
        i = .clear ∨ ∃ x y n, i = .drawSprite x y n ∧ s.RangeOk n.val ∧
          ∃ r, r < n.val ∧ s.readByte (s.i.toNat + r) ≠ 0)

/-! ### Whole-machine rules -/

/-- The column "Written by" of the summary table of spec/10_state.md, with R4, R16, R18, R24, R27, R55: an instruction changes
PC, the state the table lets it write, or, when it faults or stalls, the fault registers and the outputs; nothing
else. -/
def Obligations.InstructionsWriteOnlyTheirState : Prop :=
  ∀ (i : Instr) (s t : State), exec i s = .next t →
    OnlyChanges (.pc :: .fault :: .output :: i.writes) s t

/-- R15, R250: VF is changed by the six flag-writing instructions and by those that name it as their destination only; and
the five of them in the ALU, with X ≠ 15, and DRAW_SPRITE leave 0 or 1 in it when they do not fault (R31). -/
def Obligations.VfWrittenAsFlagOrDestinationOnly : Prop :=
  ∀ (i : Instr) (s t : State), exec i s = .next t →
    (i.writesFlag = false → i.destination 15 = false → t.getV 15 = s.getV 15) ∧
    (i.writesFlag = true → i.destination 15 = false → t.faultCause = .none →
      t.getV 15 = 0 ∨ t.getV 15 = 1)

/-- R23, R177: no program can observe the sound timer: an instruction other than SET_SOUND does the same whatever ST
holds, and leaves ST alone. The two executions it compares are given the same random byte (log 17). -/
def Obligations.SoundTimerIsUnobservable : Prop :=
  ∀ (i : Instr) (s : State) (b : Byte), (∀ x, i ≠ .setSound x) →
    exec i (s.setSt b) = onNext (fun t => t.setSt b) (exec i s)

/-- R26, R29, R31, R203: every operation, `Step`, `Tick`, a key write, a frame-buffer read, `LoadProgram` and `Reset` alike,
keeps the invariant. R31 is the spec's own inference. -/
def Obligations.EveryStepKeepsTheInvariant : Prop :=
  ∀ s t : State, s.Inv → step s = .next t → t.Inv

/-- The state after `Reset` meets the invariant. -/
def Obligations.ResetMeetsTheInvariant : Prop := State.reset.Inv

/-! ### Reset, loading, the host's operations (spec/70_reset_and_hazards.md, spec/60_exceptions.md) -/

/-- R240, R241, R247, R12: the state after `Reset`. The font bytes are the model's parameter (log 1); the values of KEY, DIRTY
and the fault registers are the spec's decisions D15, D16, D31 (log 12). -/
def Obligations.ResetValues : Prop :=
  let s := State.reset
  s.pc = 0x200 ∧ s.sp = 0 ∧ s.i = 0 ∧ s.dt = 0 ∧ s.st = 0 ∧ s.dirty = false ∧
  (∀ k, s.getV k = 0) ∧ (∀ k, s.slot k = 0) ∧ (∀ k, s.pressed k = false) ∧ (∀ x y, s.pixel x y = false) ∧
  s.faultCause = .none ∧ s.faultPc = 0 ∧ s.faultWord = 0 ∧ s.faultAddr = 0 ∧
  (∀ (a : Nat) (h : a < Config.fontRom.length), s.readByte a = Config.fontRom[a]) ∧ Config.fontRom.length = 80 ∧
  (∀ a, 0x50 ≤ a → s.readByte a = 0)

/-- R240, R243: `Reset` in any state, halted or not, gives the state of R241 (the host's own side, its schedule and the count
of draws, is no state of the core: log 5). -/
def Obligations.ResetDoesNotDependOnTheState : Prop :=
  ∀ (s : State) (ops : List Operation), s.schedule = .reset :: ops →
    StepsTo s fun t => t.schedule = ops ∧ OnlyChanges [.schedule, .rnd] State.reset t

/-- R215: `Tick` decrements each timer that is above 0, on its own, and reads and writes nothing else; R217 (decision D25 for
a halted core): in every state. -/
def Obligations.TickDecrementsTheTimers : Prop :=
  ∀ (s : State) (ops : List Operation), s.schedule = .tick :: ops →
    StepsTo s fun t =>
      (s.dt.toNat > 0 → t.dt.toNat = s.dt.toNat - 1) ∧ (s.dt.toNat = 0 → t.dt.toNat = 0) ∧
      (s.st.toNat > 0 → t.st.toNat = s.st.toNat - 1) ∧ (s.st.toNat = 0 → t.st.toNat = 0) ∧
      t.schedule = ops ∧ OnlyChanges [.dt, .st, .schedule] s t

/-- R218: after `n` ticks a timer that held `v` holds `max(0, v − n)`. -/
def Obligations.TimersSaturateAtZero : Prop :=
  ∀ (n : Nat) (s : State),
    (State.tick^[n] s).dt.toNat = s.dt.toNat - n ∧ (State.tick^[n] s).st.toNat = s.st.toNat - n ∧
    OnlyChanges [.dt, .st] s (State.tick^[n] s)

/-- R244: an image of at most 3584 bytes is copied from 0x200 on and nothing else changes; R245: a longer one is refused as
`ProgramTooLarge`, no byte is written (decision D24) and no fault is taken (R219). -/
def Obligations.LoadProgramCopiesOrRefuses : Prop :=
  ∀ (s : State) (bytes : List Byte) (ops : List Operation), s.schedule = .loadProgram bytes :: ops →
    StepsTo s fun t => t.schedule = ops ∧
      (bytes.length ≤ 3584 → t.loadResult = some .loaded ∧
        (∀ (k : Nat) (h : k < bytes.length), t.readByte (0x200 + k) = bytes[k]) ∧
        (∀ a, a < 0x200 ∨ 0x200 + bytes.length ≤ a → t.readByte a = s.readByte a) ∧
        OnlyChanges [.mem, .load, .schedule] s t) ∧
      (3584 < bytes.length → t.loadResult = some .programTooLarge ∧ OnlyChanges [.load, .schedule] s t)

/-- R27, R220: the host writes one key flag, in any state, and nothing else changes. -/
def Obligations.KeyWriteSetsOneFlag : Prop :=
  ∀ (s : State) (k : Key) (b : Bool) (ops : List Operation), s.schedule = .writeKey k b :: ops →
    StepsTo s fun t => t.schedule = ops ∧ t.pressed k = b ∧ (∀ j, j ≠ k → t.pressed j = s.pressed j) ∧
      OnlyChanges [.key, .schedule] s t

/-! ### Register load, arithmetic, logic, shift, random (spec/41_alu.md) -/

/-- R121: SET_IMM. -/
def Obligations.SetImmLoadsTheImmediate : Prop :=
  ∀ (x : Reg) (nn : Byte), EncodedAs (.setImm x nn) (0x6000 + x.val * 0x100 + nn.toNat) ∧
    ∀ s : State, s.Running → Completes (.setImm x nn) s (SetsRegister x nn.toNat s)

/-- R122: ADD_IMM, with no VF side effect. -/
def Obligations.AddImmWrapsWithoutFlag : Prop :=
  ∀ (x : Reg) (nn : Byte), EncodedAs (.addImm x nn) (0x7000 + x.val * 0x100 + nn.toNat) ∧
    ∀ s : State, s.Running →
      Completes (.addImm x nn) s (SetsRegister x (((s.getV x).toNat + nn.toNat) % 256) s)

/-- R123: SET_REG. -/
def Obligations.SetRegCopiesTheRegister : Prop :=
  ∀ x y : Reg, EncodedAs (.setReg x y) (0x8000 + x.val * 0x100 + y.val * 0x10) ∧
    ∀ s : State, s.Running → Completes (.setReg x y) s (SetsRegister x (s.getV y).toNat s)

/-- R124, R125, R126: OR, AND and XOR, with VF not written as a flag. -/
def Obligations.LogicWritesNoFlag : Prop :=
  ∀ x y : Reg,
    EncodedAs (.orReg x y) (0x8001 + x.val * 0x100 + y.val * 0x10) ∧
    EncodedAs (.andReg x y) (0x8002 + x.val * 0x100 + y.val * 0x10) ∧
    EncodedAs (.xorReg x y) (0x8003 + x.val * 0x100 + y.val * 0x10) ∧
    ∀ s : State, s.Running →
      Completes (.orReg x y) s (SetsRegister x ((s.getV x).toNat ||| (s.getV y).toNat) s) ∧
      Completes (.andReg x y) s (SetsRegister x ((s.getV x).toNat &&& (s.getV y).toNat) s) ∧
      Completes (.xorReg x y) s (SetsRegister x ((s.getV x).toNat ^^^ (s.getV y).toNat) s)

/-- R127: ADD_REG; VF is 1 iff the unsigned sum exceeds 255, unless X = 15, where the sum stands. -/
def Obligations.AddRegSetsTheCarry : Prop :=
  ∀ x y : Reg, EncodedAs (.addReg x y) (0x8004 + x.val * 0x100 + y.val * 0x10) ∧
    ∀ s : State, s.Running →
      Completes (.addReg x y) s
        (SetsFlagged x ((s.getV x).toNat + (s.getV y).toNat > 255)
          (((s.getV x).toNat + (s.getV y).toNat) % 256) s)

/-- R128, R130 (decision D9 where VF is an operand): SUB_REG and SUB_REVERSE; VF is 1 iff there is no borrow (equality gives
1), unless X = 15, where the difference stands. `a − b mod 256` is written `(a + 256 − b) % 256`. -/
def Obligations.SubtractionsSetNoBorrow : Prop :=
  ∀ x y : Reg,
    EncodedAs (.subReg x y) (0x8005 + x.val * 0x100 + y.val * 0x10) ∧
    EncodedAs (.subReverse x y) (0x8007 + x.val * 0x100 + y.val * 0x10) ∧
    ∀ s : State, s.Running →
      Completes (.subReg x y) s
        (SetsFlagged x ((s.getV x).toNat ≥ (s.getV y).toNat)
          (((s.getV x).toNat + 256 - (s.getV y).toNat) % 256) s) ∧
      Completes (.subReverse x y) s
        (SetsFlagged x ((s.getV y).toNat ≥ (s.getV x).toNat)
          (((s.getV y).toNat + 256 - (s.getV x).toNat) % 256) s)

/-- R129, R131 (decision D9 for X = 15): SHIFT_RIGHT and SHIFT_LEFT of V[X] in place; VF is the bit shifted out, unless
X = 15; for every value of the ignored field Y the result and the flag are the same function of V[X]. -/
def Obligations.ShiftsIgnoreYAndSetTheBitOut : Prop :=
  ∀ x y : Reg,
    EncodedAs (.shiftRight x y) (0x8006 + x.val * 0x100 + y.val * 0x10) ∧
    EncodedAs (.shiftLeft x y) (0x800E + x.val * 0x100 + y.val * 0x10) ∧
    ∀ s : State, s.Running →
      Completes (.shiftRight x y) s
        (SetsFlagged x ((s.getV x).toNat % 2 = 1) ((s.getV x).toNat / 2) s) ∧
      Completes (.shiftLeft x y) s
        (SetsFlagged x ((s.getV x).toNat / 128 = 1) ((s.getV x).toNat * 2 % 256) s)

/-- R120, R134 (decision D9): the five flag-writing ALU instructions with VF as the destination leave the result in VF; with
VF as the second operand they use its value from before the instruction. -/
def Obligations.VfAsOperandUsesTheOldValue : Prop :=
  ∀ (s : State), s.Running →
    (∀ y, Completes (.addReg 15 y) s fun t => (t.getV 15).toNat = ((s.getV 15).toNat + (s.getV y).toNat) % 256) ∧
    (∀ y, Completes (.subReg 15 y) s fun t =>
      (t.getV 15).toNat = ((s.getV 15).toNat + 256 - (s.getV y).toNat) % 256) ∧
    (∀ y, Completes (.subReverse 15 y) s fun t =>
      (t.getV 15).toNat = ((s.getV y).toNat + 256 - (s.getV 15).toNat) % 256) ∧
    (∀ y, Completes (.shiftRight 15 y) s fun t => (t.getV 15).toNat = (s.getV 15).toNat / 2) ∧
    (∀ y, Completes (.shiftLeft 15 y) s fun t => (t.getV 15).toNat = (s.getV 15).toNat * 2 % 256) ∧
    (∀ x, x ≠ 15 → Completes (.subReg x 15) s fun t =>
      (t.getV x).toNat = ((s.getV x).toNat + 256 - (s.getV 15).toNat) % 256 ∧
      (t.getV 15 = 1 ↔ (s.getV x).toNat ≥ (s.getV 15).toNat)) ∧
    (∀ x, x ≠ 15 → Completes (.subReverse x 15) s fun t =>
      (t.getV x).toNat = ((s.getV 15).toNat + 256 - (s.getV x).toNat) % 256 ∧
      (t.getV 15 = 1 ↔ (s.getV 15).toNat ≥ (s.getV x).toNat))

/-- R132: RANDOM; `r` is the value of this draw, a free value of the model (log 2), so the statement holds for every
stream; exactly one draw is consumed, also with NN = 0. -/
def Obligations.RandomMasksOneDraw : Prop :=
  ∀ (x : Reg) (nn : Byte), EncodedAs (.random x nn) (0xC000 + x.val * 0x100 + nn.toNat) ∧
    ∀ s : State, s.Running →
      Completes (.random x nn) s fun t =>
        (∃ r : Byte, r = Config.rnd s.rndCount ∧ t.getV x = r &&& nn) ∧
        (∀ k, k ≠ x → t.getV k = s.getV k) ∧ t.rndCount = s.rndCount + 1 ∧ Advanced s t ∧
        OnlyChanges [.v, .rnd, .pc] s t

/-! ### Control transfer (spec/40_flow.md) -/

/-- R100: RETURN with a live entry, whose slot keeps its value; with none it fails as `StackUnderflow` and nothing else
changes. -/
def Obligations.ReturnPopsTheNewestEntry : Prop :=
  EncodedAs .ret 0x00EE ∧
  (∀ (s : State) (k : Fin 16), s.Running → s.sp.val = k.val + 1 →
    Completes .ret s fun t => t.pc = s.slot k ∧ t.sp.val = k.val ∧ OnlyChanges [.pc, .sp] s t) ∧
  ∀ s : State, s.Running → s.sp = 0 →
    Completes .ret s fun t => t.faultCause = .stackUnderflow ∧ OnlyChanges [.fault, .output] s t

/-- R101: JUMP, with no further advance, also to its own address. -/
def Obligations.JumpSetsThePc : Prop :=
  ∀ nnn : Addr12, EncodedAs (.jump nnn) (0x1000 + nnn.toNat) ∧
    ∀ s : State, s.Running →
      Completes (.jump nnn) s fun t => t.pc.toNat = nnn.toNat ∧ OnlyChanges [.pc] s t

/-- R102, R20 (decision D8 for the slot): CALL with a free slot pushes PC + 2; the 16th nested CALL still succeeds. -/
def Obligations.CallPushesTheNextAddress : Prop :=
  ∀ nnn : Addr12, EncodedAs (.call nnn) (0x2000 + nnn.toNat) ∧
    ∀ (s : State) (k : Fin 16), s.Running → s.sp.val = k.val →
      Completes (.call nnn) s fun t =>
        (t.slot k).toNat = s.pc.toNat + 2 ∧ (∀ j, j ≠ k → t.slot j = s.slot j) ∧ t.sp.val = k.val + 1 ∧
        t.pc.toNat = nnn.toNat ∧ OnlyChanges [.stack, .sp, .pc] s t

/-- R207, R208, R203 (decisions D5, D6): CALL with 16 live entries takes `StackOverflow`, RETURN with none takes
`StackUnderflow`; nothing else changes. -/
def Obligations.StackFaultsAtItsLimits : Prop :=
  ∀ s : State, s.Running →
    (s.sp = 16 → ∀ nnn, Completes (.call nnn) s (FaultTaken .stackOverflow (encode (.call nnn)) 0 s)) ∧
    (s.sp = 0 → Completes .ret s (FaultTaken .stackUnderflow 0x00EE 0 s))

/-- R103: JUMP_OFFSET adds V[0], never V[X], and is not reduced modulo 4096. -/
def Obligations.JumpOffsetAddsV0 : Prop :=
  ∀ nnn : Addr12, EncodedAs (.jumpOffset nnn) (0xB000 + nnn.toNat) ∧
    ∀ s : State, s.Running →
      Completes (.jumpOffset nnn) s fun t => t.pc.toNat = nnn.toNat + (s.getV 0).toNat ∧ OnlyChanges [.pc] s t

/-- R104, R105: the skips on an immediate. -/
def Obligations.ImmediateSkips : Prop :=
  ∀ (x : Reg) (nn : Byte),
    EncodedAs (.skipEqImm x nn) (0x3000 + x.val * 0x100 + nn.toNat) ∧
    EncodedAs (.skipNeqImm x nn) (0x4000 + x.val * 0x100 + nn.toNat) ∧
    ∀ s : State, s.Running →
      Completes (.skipEqImm x nn) s (Skips (s.getV x = nn) s) ∧
      Completes (.skipNeqImm x nn) s (Skips (s.getV x ≠ nn) s)

/-- R106, R107: the skips on two registers. -/
def Obligations.RegisterSkips : Prop :=
  ∀ x y : Reg,
    EncodedAs (.skipEqReg x y) (0x5000 + x.val * 0x100 + y.val * 0x10) ∧
    EncodedAs (.skipNeqReg x y) (0x9000 + x.val * 0x100 + y.val * 0x10) ∧
    ∀ s : State, s.Running →
      Completes (.skipEqReg x y) s (Skips (s.getV x = s.getV y) s) ∧
      Completes (.skipNeqReg x y) s (Skips (s.getV x ≠ s.getV y) s)

/-- R109: `n` nested CALLs followed by `k` RETURNs (1 ≤ k ≤ n ≤ 16 − SP), the CALLs at fetchable targets: the k-th RETURN sets
PC to the address after the (n − k + 1)-th CALL, SP is k lower than after the CALLs, and the entries that were live
before are untouched. With k = n, SP is back at its value and PC is the address after the first CALL. -/
def Obligations.NestedCallsReturnInOrder : Prop :=
  ∀ (s : State) (targets : List Addr12) (k site : Nat), s.Running → s.sp.val + targets.length ≤ 16 →
    (∀ a ∈ targets, a.toNat ≤ 0xFFE) → 0 < k → k ≤ targets.length →
    (s.pc.toNat :: targets.map BitVec.toNat)[targets.length - k]? = some site →
    ∃ t, execAll (targets.map Instr.call ++ List.replicate k .ret) s = .next t ∧
      t.pc.toNat = site + 2 ∧ t.sp.val = s.sp.val + targets.length - k ∧
      (∀ j : Fin 16, j.val < s.sp.val → t.slot j = s.slot j) ∧ OnlyChanges [.pc, .sp, .stack] s t

/-! ### Index register and memory (spec/42_index_memory.md) -/

/-- R141: SET_INDEX. -/
def Obligations.SetIndexLoadsTheAddress : Prop :=
  ∀ nnn : Addr12, EncodedAs (.setIndex nnn) (0xA000 + nnn.toNat) ∧
    ∀ s : State, s.Running →
      Completes (.setIndex nnn) s fun t => t.i.toNat = nnn.toNat ∧ Advanced s t ∧ OnlyChanges [.i, .pc] s t

/-- R142: ADD_TO_INDEX wraps modulo 65536 and writes no flag. -/
def Obligations.AddToIndexWrapsWithoutFlag : Prop :=
  ∀ x : Reg, EncodedAs (.addToIndex x) (0xF01E + x.val * 0x100) ∧
    ∀ s : State, s.Running →
      Completes (.addToIndex x) s fun t =>
        t.i.toNat = (s.i.toNat + (s.getV x).toNat) % 65536 ∧ Advanced s t ∧ OnlyChanges [.i, .pc] s t

/-- R143 (decision D14 for the order of the glyphs): FONT_CHAR_ADDRESS for a digit. -/
def Obligations.FontCharAddressOfADigit : Prop :=
  ∀ x : Reg, EncodedAs (.fontCharAddress x) (0xF029 + x.val * 0x100) ∧
    ∀ s : State, s.Running → (s.getV x).toNat ≤ 15 →
      Completes (.fontCharAddress x) s fun t =>
        t.i.toNat = 5 * (s.getV x).toNat ∧ Advanced s t ∧ OnlyChanges [.i, .pc] s t

/-- R144 (decision D20 for the order): BCD stores the hundreds at `I`, the tens at `I + 1`, the ones at `I + 2`, and no other
byte. -/
def Obligations.BcdStoresTheDigits : Prop :=
  ∀ x : Reg, EncodedAs (.bcd x) (0xF033 + x.val * 0x100) ∧
    ∀ s : State, s.Running → s.RangeOk 3 →
      Completes (.bcd x) s fun t =>
        (t.readByte s.i.toNat).toNat = (s.getV x).toNat / 100 ∧
        (t.readByte (s.i.toNat + 1)).toNat = (s.getV x).toNat / 10 % 10 ∧
        (t.readByte (s.i.toNat + 2)).toNat = (s.getV x).toNat % 10 ∧
        (∀ a, a < s.i.toNat ∨ s.i.toNat + 3 ≤ a → t.readByte a = s.readByte a) ∧
        Advanced s t ∧ OnlyChanges [.mem, .pc] s t

/-- R145: REGISTER_DUMP stores V[0] to V[X] at `I` to `I + X`, and no other byte; `I` is unchanged (the spec's inference). -/
def Obligations.RegisterDumpStoresTheRegisters : Prop :=
  ∀ x : Reg, EncodedAs (.registerDump x) (0xF055 + x.val * 0x100) ∧
    ∀ s : State, s.Running → s.RangeOk (x.val + 1) →
      Completes (.registerDump x) s fun t =>
        (∀ k : Reg, k ≤ x → t.readByte (s.i.toNat + k.val) = s.getV k) ∧
        (∀ a, a < s.i.toNat ∨ s.i.toNat + x.val + 1 ≤ a → t.readByte a = s.readByte a) ∧
        Advanced s t ∧ OnlyChanges [.mem, .pc] s t

/-- R146: REGISTER_LOAD loads V[0] to V[X] from `I` to `I + X`, and no other register; `I` is unchanged (the spec's
inference). -/
def Obligations.RegisterLoadLoadsTheRegisters : Prop :=
  ∀ x : Reg, EncodedAs (.registerLoad x) (0xF065 + x.val * 0x100) ∧
    ∀ s : State, s.Running → s.RangeOk (x.val + 1) →
      Completes (.registerLoad x) s fun t =>
        (∀ k : Reg, k ≤ x → t.getV k = s.readByte (s.i.toNat + k.val)) ∧
        (∀ k : Reg, x < k → t.getV k = s.getV k) ∧
        Advanced s t ∧ OnlyChanges [.v, .pc] s t

/-- R45, R147, R203, R209(b) (decisions D5, D6): DRAW_SPRITE, BCD, REGISTER_DUMP and REGISTER_LOAD whose range leaves memory
take `OutOfBoundsAccess` with the lowest out-of-range address, and perform no access. -/
def Obligations.RangeFaultsBeforeTheFirstAccess : Prop :=
  ∀ s : State, s.Running →
    (∀ x y n, ¬ s.RangeOk n.val → Completes (.drawSprite x y n) s
      (FaultTaken .outOfBoundsAccess (encode (.drawSprite x y n)) (max s.i.toNat 0x1000) s)) ∧
    (∀ x, ¬ s.RangeOk 3 → Completes (.bcd x) s
      (FaultTaken .outOfBoundsAccess (encode (.bcd x)) (max s.i.toNat 0x1000) s)) ∧
    (∀ x : Reg, ¬ s.RangeOk (x.val + 1) → Completes (.registerDump x) s
      (FaultTaken .outOfBoundsAccess (encode (.registerDump x)) (max s.i.toNat 0x1000) s)) ∧
    (∀ x : Reg, ¬ s.RangeOk (x.val + 1) → Completes (.registerLoad x) s
      (FaultTaken .outOfBoundsAccess (encode (.registerLoad x)) (max s.i.toNat 0x1000) s))

/-- R143, R170, R203, R209(c) (decisions D10, D11): a key or digit above 15 takes `OutOfBoundsAccess` with the value as the
address; it is not masked. -/
def Obligations.IndexFaultsAboveFifteen : Prop :=
  ∀ (s : State) (x : Reg), s.Running → 15 < (s.getV x).toNat →
    Completes (.fontCharAddress x) s
      (FaultTaken .outOfBoundsAccess (encode (.fontCharAddress x)) (s.getV x).toNat s) ∧
    Completes (.skipKeyPressed x) s
      (FaultTaken .outOfBoundsAccess (encode (.skipKeyPressed x)) (s.getV x).toNat s) ∧
    Completes (.skipKeyNotPressed x) s
      (FaultTaken .outOfBoundsAccess (encode (.skipKeyNotPressed x)) (s.getV x).toNat s)

/-- R51 (decision D27): a REGISTER_DUMP followed by a REGISTER_LOAD from the same `I` returns the dumped values, whatever the
registers hold in between. -/
def Obligations.DumpThenLoadReturnsTheValues : Prop :=
  ∀ (s : State) (x : Reg), s.Running → s.RangeOk (x.val + 1) →
    Completes (.registerDump x) s fun t =>
      ∀ u : State, u.Running → u.i = s.i → Part.same .mem t u →
        Completes (.registerLoad x) u fun r => ∀ k : Reg, k ≤ x → r.getV k = s.getV k

/-- R53 (decision D27), R252: a store is seen by the very next fetch: a REGISTER_DUMP of V0 and V1 over the next instruction
makes their bytes the word that is fetched next. -/
def Obligations.StoreIsSeenByTheNextFetch : Prop :=
  ∀ (s : State) (x : Reg), s.Running → 1 ≤ x.val → s.RangeOk (x.val + 1) → s.i.toNat = s.pc.toNat + 2 →
    Completes (.registerDump x) s fun t => t.fetch = .ok (wordOfBytes (s.getV 0) (s.getV 1))

/-! ### Display (spec/43_display.md) -/

/-- R161: CLEAR; DIRTY is set also when every pixel was 0 (the spec's inference). -/
def Obligations.ClearBlanksTheFrame : Prop :=
  EncodedAs .clear 0x00E0 ∧
  ∀ s : State, s.Running →
    Completes .clear s fun t =>
      (∀ px py, t.pixel px py = false) ∧ t.dirty = true ∧ Advanced s t ∧ OnlyChanges [.fb, .dirty, .pc] s t

/-- R160, R162 (decision D9 for an origin in VF): DRAW_SPRITE inverts exactly the pixels of the sprite's 1 bits, wrapping on
both axes; VF is 1 iff one of them was set; DIRTY is set iff there is one; N = 0 draws nothing and clears VF. -/
def Obligations.DrawSpriteInvertsItsPixels : Prop :=
  ∀ (x y : Reg) (n : Fin 16),
    EncodedAs (.drawSprite x y n) (0xD000 + x.val * 0x100 + y.val * 0x10 + n.val) ∧
    ∀ s : State, s.Running → s.RangeOk n.val →
      Completes (.drawSprite x y n) s fun t =>
        (∀ px py, s.SpriteHas x y n px py → t.pixel px py = !s.pixel px py) ∧
        (∀ px py, ¬ s.SpriteHas x y n px py → t.pixel px py = s.pixel px py) ∧
        ((∃ px py, s.SpriteHas x y n px py ∧ s.pixel px py = true) → t.getV 15 = 1) ∧
        ((¬ ∃ px py, s.SpriteHas x y n px py ∧ s.pixel px py = true) → t.getV 15 = 0) ∧
        (∀ k, k ≠ 15 → t.getV k = s.getV k) ∧
        (t.dirty = true ↔ s.dirty = true ∨ ∃ px py, s.SpriteHas x y n px py) ∧
        Advanced s t ∧ OnlyChanges [.fb, .v, .dirty, .pc] s t

/-- R164 (the spec's inference): the same sprite drawn twice restores the frame buffer, and the second draw reports a
collision iff some 1 bit's pixel was 0 before the first. The two draws use the same `I`, N, memory and origin; the second
may stand at another PC. -/
def Obligations.DrawingTwiceRestoresTheFrame : Prop :=
  ∀ (s : State) (x y : Reg) (n : Fin 16), s.Running → s.RangeOk n.val → x ≠ 15 → y ≠ 15 →
    Completes (.drawSprite x y n) s fun t => t.Running →
      Completes (.drawSprite x y n) t fun u =>
        (∀ px py, u.pixel px py = s.pixel px py) ∧
        (u.getV 15 = 1 ↔ ∃ px py, s.SpriteHas x y n px py ∧ s.pixel px py = false)

/-! ### Keys and timers (spec/44_keys_timers.md) -/

/-- R171, R172: the skips on a key, for a key number 0 to 15. -/
def Obligations.KeySkips : Prop :=
  ∀ x : Reg,
    EncodedAs (.skipKeyPressed x) (0xE09E + x.val * 0x100) ∧
    EncodedAs (.skipKeyNotPressed x) (0xE0A1 + x.val * 0x100) ∧
    ∀ (s : State) (k : Key), s.Running → (s.getV x).toNat = k.val →
      Completes (.skipKeyPressed x) s (Skips (s.pressed k = true) s) ∧
      Completes (.skipKeyNotPressed x) s (Skips (s.pressed k = false) s)

/-- R173, R175, R176: GET_DELAY, SET_DELAY and SET_SOUND. -/
def Obligations.TimerRegistersMove : Prop :=
  ∀ x : Reg,
    EncodedAs (.getDelay x) (0xF007 + x.val * 0x100) ∧
    EncodedAs (.setDelay x) (0xF015 + x.val * 0x100) ∧
    EncodedAs (.setSound x) (0xF018 + x.val * 0x100) ∧
    ∀ s : State, s.Running →
      Completes (.getDelay x) s (SetsRegister x s.dt.toNat s) ∧
      Completes (.setDelay x) s (fun t => t.dt = s.getV x ∧ Advanced s t ∧ OnlyChanges [.dt, .pc] s t) ∧
      Completes (.setSound x) s (fun t => t.st = s.getV x ∧ Advanced s t ∧ OnlyChanges [.st, .pc] s t)

/-- R174 (decision D12): WAIT_KEY with a key pressed reports the least one. -/
def Obligations.WaitKeyReportsTheLeastKey : Prop :=
  ∀ x : Reg, EncodedAs (.waitKey x) (0xF00A + x.val * 0x100) ∧
    ∀ (s : State) (k : Key), s.Running → s.pressed k = true → (∀ j, j < k → s.pressed j = false) →
      Completes (.waitKey x) s (SetsRegister x k.val s)

/-- R80, R174 (decision D12): WAIT_KEY with no key pressed stalls: the whole `Step` changes nothing and returns `STALLED`
with no redraw. -/
def Obligations.WaitKeyStallsWithoutAKey : Prop :=
  ∀ (s : State) (w : Word) (x : Reg), s.StepDue → s.Running → s.fetch = .ok w → decodeWord w = .ok (.waitKey x) →
    (∀ k, s.pressed k = false) →
    StepsTo s fun t => t.output = some ⟨.stalled, false⟩ ∧ t.schedule = s.schedule.tail ∧
      OnlyChanges [.output, .schedule] s t
end

