-- ==== Sys2Proof/Laws/Memory.lean ====
section
/-! SUPPORT. Memory: a read after writes, and the canonical form kept by every operation. -/

namespace Sys2Proof.Machine

theorem Memory.read_erase_self (m : Memory) (a : Nat) : Memory.read (Memory.erase m a) a = Memory.unlisted a := by
  induction m with
  | nil => rfl
  | cons c m ih =>
    obtain ⟨b, v⟩ := c
    by_cases h : b = a
    · simpa [Memory.erase, h] using ih
    · simpa [Memory.erase, h, Memory.read] using ih

theorem Memory.read_erase_ne (m : Memory) {a b : Nat} (h : b ≠ a) :
    Memory.read (Memory.erase m a) b = Memory.read m b := by
  induction m with
  | nil => rfl
  | cons c m ih =>
    obtain ⟨d, v⟩ := c
    by_cases hd : d = a
    · have : d ≠ b := fun e => h (e.symm.trans hd)
      simpa [Memory.erase, hd, Memory.read, this, hd ▸ this] using ih
    · simp only [Memory.erase, List.filter_cons, bne_iff_ne, ne_eq, hd, not_false_eq_true, if_true, Memory.read]
      split
      · rfl
      · exact ih

theorem Memory.read_insert_self (m : Memory) (a : Nat) (v : Byte) (h : ∀ c ∈ m, c.1 ≠ a) :
    Memory.read (Memory.insert m a v) a = v := by
  induction m with
  | nil => simp [Memory.insert, Memory.read]
  | cons c m ih =>
    obtain ⟨b, u⟩ := c
    have hb : b ≠ a := h (b, u) (by simp)
    unfold Memory.insert
    split
    · simp [Memory.read]
    · simpa [Memory.read, hb] using ih fun c hc => h c (by simp [hc])

theorem Memory.read_insert_ne (m : Memory) {a b : Nat} (v : Byte) (h : b ≠ a) :
    Memory.read (Memory.insert m a v) b = Memory.read m b := by
  induction m with
  | nil => simp [Memory.insert, Memory.read, Ne.symm h]
  | cons c m ih =>
    obtain ⟨d, u⟩ := c
    unfold Memory.insert
    split
    · simp [Memory.read, Ne.symm h]
    · simp only [Memory.read]
      split
      · rfl
      · exact ih

/-- A read after a write to the same address gives the value written. -/
theorem Memory.read_write_self (m : Memory) (a : Nat) (v : Byte) : Memory.read (Memory.write m a v) a = v := by
  unfold Memory.write
  split
  · rename_i h
    rw [Memory.read_erase_self, h]
  · exact Memory.read_insert_self _ _ _ fun c hc => by simpa [Memory.erase] using (List.mem_filter.1 hc).2

/-- A write leaves every other address alone. -/
theorem Memory.read_write_ne (m : Memory) {a b : Nat} (v : Byte) (h : b ≠ a) :
    Memory.read (Memory.write m a v) b = Memory.read m b := by
  unfold Memory.write
  split
  · exact Memory.read_erase_ne m h
  · rw [Memory.read_insert_ne _ _ h, Memory.read_erase_ne m h]

/-- What a run of writes from `a` on leaves unchanged: every address outside it. -/
theorem Memory.read_writeBytes_outside (m : Memory) (a b : Nat) (vs : List Byte) (h : b < a ∨ a + vs.length ≤ b) :
    Memory.read (Memory.writeBytes m a vs) b = Memory.read m b := by
  induction vs generalizing m a with
  | nil => rfl
  | cons v vs ih =>
    simp only [List.length_cons] at h
    rw [Memory.writeBytes, ih _ _ (by omega), Memory.read_write_ne _ _ (by omega)]

/-- What a run of writes from `a` on leaves at its `k`-th address. -/
theorem Memory.read_writeBytes_inside (m : Memory) (a k : Nat) (vs : List Byte) (h : k < vs.length) :
    Memory.read (Memory.writeBytes m a vs) (a + k) = vs[k] := by
  induction vs generalizing m a k with
  | nil => simp at h
  | cons v vs ih =>
    cases k with
    | zero =>
      rw [Memory.writeBytes, Memory.read_writeBytes_outside _ _ _ _ (by omega), Nat.add_zero,
        Memory.read_write_self]
      rfl
    | succ k =>
      have := ih (Memory.write m a v) (a + 1) k (by simpa using h)
      rw [Memory.writeBytes, show a + (k + 1) = a + 1 + k by omega, this]
      rfl

/-! ### The canonical form -/

theorem Memory.wfFrom_mono {lo lo' : Nat} {m : Memory} (h : Memory.wfFrom lo m = true) (hl : lo' ≤ lo) :
    Memory.wfFrom lo' m = true := by
  cases m with
  | nil => rfl
  | cons c m =>
    simp only [Memory.wfFrom, Bool.and_eq_true, decide_eq_true_eq] at h ⊢
    exact ⟨⟨⟨by omega, h.1.1.2⟩, h.1.2⟩, h.2⟩

theorem Memory.wfFrom_erase {lo : Nat} {m : Memory} (a : Nat) (h : Memory.wfFrom lo m = true) :
    Memory.wfFrom lo (Memory.erase m a) = true := by
  induction m generalizing lo with
  | nil => rfl
  | cons c m ih =>
    obtain ⟨b, u⟩ := c
    simp only [Memory.wfFrom, Bool.and_eq_true, decide_eq_true_eq] at h
    by_cases hb : b = a
    · have : Memory.erase ((b, u) :: m) a = Memory.erase m a := by simp [Memory.erase, hb]
      rw [this]
      exact Memory.wfFrom_mono (ih h.2) (by omega)
    · have : Memory.erase ((b, u) :: m) a = (b, u) :: Memory.erase m a := by simp [Memory.erase, hb]
      rw [this]
      simp only [Memory.wfFrom, Bool.and_eq_true, decide_eq_true_eq]
      exact ⟨h.1, ih h.2⟩

theorem Memory.wfFrom_insert {lo : Nat} {m : Memory} {a : Nat} {v : Byte} (h : Memory.wfFrom lo m = true)
    (hn : ∀ c ∈ m, c.1 ≠ a) (hlo : lo ≤ a) (ha : a < Config.memSize) (hv : v ≠ Memory.unlisted a) :
    Memory.wfFrom lo (Memory.insert m a v) = true := by
  induction m generalizing lo with
  | nil => simp [Memory.insert, Memory.wfFrom, hlo, ha, hv]
  | cons c m ih =>
    obtain ⟨b, u⟩ := c
    have hb : b ≠ a := hn (b, u) (by simp)
    simp only [Memory.wfFrom, Bool.and_eq_true, decide_eq_true_eq] at h
    unfold Memory.insert
    split
    · simp only [Memory.wfFrom, Bool.and_eq_true, decide_eq_true_eq, bne_iff_ne, ne_eq]
      exact ⟨⟨⟨hlo, ha⟩, hv⟩, ⟨⟨by omega, h.1.1.2⟩, by simpa using h.1.2⟩, h.2⟩
    · simp only [Memory.wfFrom, Bool.and_eq_true, decide_eq_true_eq]
      exact ⟨h.1, ih h.2 (fun c hc => hn c (by simp [hc])) (by omega)⟩

/-- A write inside the address space keeps the canonical form. -/
theorem Memory.wf_write {m : Memory} {a : Nat} (v : Byte) (h : Memory.wf m = true) (ha : a < Config.memSize) :
    Memory.wf (Memory.write m a v) = true := by
  unfold Memory.write
  split
  · exact Memory.wfFrom_erase a h
  · exact Memory.wfFrom_insert (Memory.wfFrom_erase a h)
      (fun c hc => by simpa [Memory.erase] using (List.mem_filter.1 hc).2) (Nat.zero_le a) ha ‹_›

/-- A run of writes inside the address space keeps the canonical form. -/
theorem Memory.wf_writeBytes {m : Memory} {a : Nat} {vs : List Byte} (h : Memory.wf m = true)
    (ha : vs = [] ∨ a + vs.length ≤ Config.memSize) : Memory.wf (Memory.writeBytes m a vs) = true := by
  induction vs generalizing m a with
  | nil => exact h
  | cons v vs ih =>
    rw [Memory.writeBytes]
    simp only [List.length_cons, reduceCtorEq, false_or] at ha
    exact ih (Memory.wf_write v h (by omega)) (by omega)

/-- Memory after `Reset` has the canonical form. -/
theorem Memory.wf_reset : Memory.wf State.reset.mem = true := rfl

/-- Below the first address a canonical memory may list, every byte reads as unlisted. -/
theorem Memory.read_of_wfFrom_lt {lo a : Nat} {m : Memory} (h : Memory.wfFrom lo m = true) (ha : a < lo) :
    Memory.read m a = Memory.unlisted a := by
  induction m generalizing lo with
  | nil => rfl
  | cons c m ih =>
    obtain ⟨b, u⟩ := c
    simp only [Memory.wfFrom, Bool.and_eq_true, decide_eq_true_eq] at h
    rw [Memory.read, if_neg (by omega)]
    exact ih h.2 (by omega)

/-- Two canonical memories that read alike everywhere are the same list. -/
theorem Memory.eq_of_read {m m' : Memory} (h : Memory.wf m = true) (h' : Memory.wf m' = true)
    (hr : ∀ a, Memory.read m a = Memory.read m' a) : m = m' := by
  suffices ∀ lo, Memory.wfFrom lo m = true → Memory.wfFrom lo m' = true → m = m' from this 0 h h'
  clear h h'
  induction m generalizing m' with
  | nil =>
    intro lo _ h'
    cases m' with
    | nil => rfl
    | cons c m' =>
      simp only [Memory.wfFrom, Bool.and_eq_true, bne_iff_ne] at h'
      exact absurd (by simpa [Memory.read] using (hr c.1).symm) h'.1.2
  | cons c m ih =>
    obtain ⟨b, u⟩ := c
    intro lo h h'
    simp only [Memory.wfFrom, Bool.and_eq_true, bne_iff_ne, decide_eq_true_eq] at h
    cases m' with
    | nil => exact absurd (by simpa [Memory.read] using hr b) h.1.2
    | cons c' m' =>
      obtain ⟨b', u'⟩ := c'
      simp only [Memory.wfFrom, Bool.and_eq_true, bne_iff_ne, decide_eq_true_eq] at h'
      have hb : b = b' := by
        rcases Nat.lt_trichotomy b b' with hlt | he | hgt
        · have := hr b
          rw [Memory.read, if_pos rfl, Memory.read, if_neg (by omega),
            Memory.read_of_wfFrom_lt h'.2 (by omega)] at this
          exact absurd this h.1.2
        · exact he
        · have := hr b'
          rw [Memory.read, if_neg (by omega), Memory.read_of_wfFrom_lt h.2 (by omega), Memory.read,
            if_pos rfl] at this
          exact absurd this.symm h'.1.2
      subst hb
      have hu : u = u' := by simpa [Memory.read] using hr b
      subst hu
      refine congrArg _ (ih (fun a => ?_) _ h.2 h'.2)
      by_cases ha : b = a
      · subst ha
        rw [Memory.read_of_wfFrom_lt h.2 (by omega), Memory.read_of_wfFrom_lt h'.2 (by omega)]
      · simpa [Memory.read, ha] using hr a

end Sys2Proof.Machine
end

