-- ==== Sys2Proof/Laws/State.lean ====
section
/-! SUPPORT. What each update of the state does to each field and accessor: one lemma per field per update, all by `rfl`. -/

namespace Sys2Proof.Machine

/-! ### `State.setV` -/

@[simp] theorem State.setV_mem (s : State) (x : Reg) (b : Byte) : (s.setV x b).mem = s.mem := rfl
@[simp] theorem State.setV_v (s : State) (x : Reg) (b : Byte) : (s.setV x b).v = s.v.set x.val b := rfl
@[simp] theorem State.setV_i (s : State) (x : Reg) (b : Byte) : (s.setV x b).i = s.i := rfl
@[simp] theorem State.setV_pc (s : State) (x : Reg) (b : Byte) : (s.setV x b).pc = s.pc := rfl
@[simp] theorem State.setV_stack (s : State) (x : Reg) (b : Byte) : (s.setV x b).stack = s.stack := rfl
@[simp] theorem State.setV_sp (s : State) (x : Reg) (b : Byte) : (s.setV x b).sp = s.sp := rfl
@[simp] theorem State.setV_dt (s : State) (x : Reg) (b : Byte) : (s.setV x b).dt = s.dt := rfl
@[simp] theorem State.setV_st (s : State) (x : Reg) (b : Byte) : (s.setV x b).st = s.st := rfl
@[simp] theorem State.setV_fb (s : State) (x : Reg) (b : Byte) : (s.setV x b).fb = s.fb := rfl
@[simp] theorem State.setV_dirty (s : State) (x : Reg) (b : Byte) : (s.setV x b).dirty = s.dirty := rfl
@[simp] theorem State.setV_key (s : State) (x : Reg) (b : Byte) : (s.setV x b).key = s.key := rfl
@[simp] theorem State.setV_faultCause (s : State) (x : Reg) (b : Byte) : (s.setV x b).faultCause = s.faultCause := rfl
@[simp] theorem State.setV_faultPc (s : State) (x : Reg) (b : Byte) : (s.setV x b).faultPc = s.faultPc := rfl
@[simp] theorem State.setV_faultWord (s : State) (x : Reg) (b : Byte) : (s.setV x b).faultWord = s.faultWord := rfl
@[simp] theorem State.setV_faultAddr (s : State) (x : Reg) (b : Byte) : (s.setV x b).faultAddr = s.faultAddr := rfl
@[simp] theorem State.setV_rndCount (s : State) (x : Reg) (b : Byte) : (s.setV x b).rndCount = s.rndCount := rfl
@[simp] theorem State.setV_output (s : State) (x : Reg) (b : Byte) : (s.setV x b).output = s.output := rfl
@[simp] theorem State.setV_loadResult (s : State) (x : Reg) (b : Byte) : (s.setV x b).loadResult = s.loadResult := rfl
@[simp] theorem State.setV_schedule (s : State) (x : Reg) (b : Byte) : (s.setV x b).schedule = s.schedule := rfl
@[simp] theorem State.readByte_setV (s : State) (x : Reg) (b : Byte) (j : Nat) : ((s.setV x b).readByte j) = s.readByte j := rfl
@[simp] theorem State.slot_setV (s : State) (x : Reg) (b : Byte) (j : Fin 16) : ((s.setV x b).slot j) = s.slot j := rfl
@[simp] theorem State.pressed_setV (s : State) (x : Reg) (b : Byte) (j : Key) : ((s.setV x b).pressed j) = s.pressed j := rfl
@[simp] theorem State.pixel_setV (s : State) (x : Reg) (b : Byte) (x' : Col) (y' : Row) : ((s.setV x b).pixel x' y') = s.pixel x' y' := rfl
@[simp] theorem State.halted_setV (s : State) (x : Reg) (b : Byte) : ((s.setV x b).halted) = s.halted := rfl

/-! ### `State.setAllV` -/

@[simp] theorem State.setAllV_mem (s : State) (v : Vector Byte 16) : (s.setAllV v).mem = s.mem := rfl
@[simp] theorem State.setAllV_v (s : State) (v : Vector Byte 16) : (s.setAllV v).v = v := rfl
@[simp] theorem State.setAllV_i (s : State) (v : Vector Byte 16) : (s.setAllV v).i = s.i := rfl
@[simp] theorem State.setAllV_pc (s : State) (v : Vector Byte 16) : (s.setAllV v).pc = s.pc := rfl
@[simp] theorem State.setAllV_stack (s : State) (v : Vector Byte 16) : (s.setAllV v).stack = s.stack := rfl
@[simp] theorem State.setAllV_sp (s : State) (v : Vector Byte 16) : (s.setAllV v).sp = s.sp := rfl
@[simp] theorem State.setAllV_dt (s : State) (v : Vector Byte 16) : (s.setAllV v).dt = s.dt := rfl
@[simp] theorem State.setAllV_st (s : State) (v : Vector Byte 16) : (s.setAllV v).st = s.st := rfl
@[simp] theorem State.setAllV_fb (s : State) (v : Vector Byte 16) : (s.setAllV v).fb = s.fb := rfl
@[simp] theorem State.setAllV_dirty (s : State) (v : Vector Byte 16) : (s.setAllV v).dirty = s.dirty := rfl
@[simp] theorem State.setAllV_key (s : State) (v : Vector Byte 16) : (s.setAllV v).key = s.key := rfl
@[simp] theorem State.setAllV_faultCause (s : State) (v : Vector Byte 16) : (s.setAllV v).faultCause = s.faultCause := rfl
@[simp] theorem State.setAllV_faultPc (s : State) (v : Vector Byte 16) : (s.setAllV v).faultPc = s.faultPc := rfl
@[simp] theorem State.setAllV_faultWord (s : State) (v : Vector Byte 16) : (s.setAllV v).faultWord = s.faultWord := rfl
@[simp] theorem State.setAllV_faultAddr (s : State) (v : Vector Byte 16) : (s.setAllV v).faultAddr = s.faultAddr := rfl
@[simp] theorem State.setAllV_rndCount (s : State) (v : Vector Byte 16) : (s.setAllV v).rndCount = s.rndCount := rfl
@[simp] theorem State.setAllV_output (s : State) (v : Vector Byte 16) : (s.setAllV v).output = s.output := rfl
@[simp] theorem State.setAllV_loadResult (s : State) (v : Vector Byte 16) : (s.setAllV v).loadResult = s.loadResult := rfl
@[simp] theorem State.setAllV_schedule (s : State) (v : Vector Byte 16) : (s.setAllV v).schedule = s.schedule := rfl
@[simp] theorem State.readByte_setAllV (s : State) (v : Vector Byte 16) (j : Nat) : ((s.setAllV v).readByte j) = s.readByte j := rfl
@[simp] theorem State.slot_setAllV (s : State) (v : Vector Byte 16) (j : Fin 16) : ((s.setAllV v).slot j) = s.slot j := rfl
@[simp] theorem State.pressed_setAllV (s : State) (v : Vector Byte 16) (j : Key) : ((s.setAllV v).pressed j) = s.pressed j := rfl
@[simp] theorem State.pixel_setAllV (s : State) (v : Vector Byte 16) (x' : Col) (y' : Row) : ((s.setAllV v).pixel x' y') = s.pixel x' y' := rfl
@[simp] theorem State.halted_setAllV (s : State) (v : Vector Byte 16) : ((s.setAllV v).halted) = s.halted := rfl

/-! ### `State.setI` -/

@[simp] theorem State.setI_mem (s : State) (w : Word) : (s.setI w).mem = s.mem := rfl
@[simp] theorem State.setI_v (s : State) (w : Word) : (s.setI w).v = s.v := rfl
@[simp] theorem State.setI_i (s : State) (w : Word) : (s.setI w).i = w := rfl
@[simp] theorem State.setI_pc (s : State) (w : Word) : (s.setI w).pc = s.pc := rfl
@[simp] theorem State.setI_stack (s : State) (w : Word) : (s.setI w).stack = s.stack := rfl
@[simp] theorem State.setI_sp (s : State) (w : Word) : (s.setI w).sp = s.sp := rfl
@[simp] theorem State.setI_dt (s : State) (w : Word) : (s.setI w).dt = s.dt := rfl
@[simp] theorem State.setI_st (s : State) (w : Word) : (s.setI w).st = s.st := rfl
@[simp] theorem State.setI_fb (s : State) (w : Word) : (s.setI w).fb = s.fb := rfl
@[simp] theorem State.setI_dirty (s : State) (w : Word) : (s.setI w).dirty = s.dirty := rfl
@[simp] theorem State.setI_key (s : State) (w : Word) : (s.setI w).key = s.key := rfl
@[simp] theorem State.setI_faultCause (s : State) (w : Word) : (s.setI w).faultCause = s.faultCause := rfl
@[simp] theorem State.setI_faultPc (s : State) (w : Word) : (s.setI w).faultPc = s.faultPc := rfl
@[simp] theorem State.setI_faultWord (s : State) (w : Word) : (s.setI w).faultWord = s.faultWord := rfl
@[simp] theorem State.setI_faultAddr (s : State) (w : Word) : (s.setI w).faultAddr = s.faultAddr := rfl
@[simp] theorem State.setI_rndCount (s : State) (w : Word) : (s.setI w).rndCount = s.rndCount := rfl
@[simp] theorem State.setI_output (s : State) (w : Word) : (s.setI w).output = s.output := rfl
@[simp] theorem State.setI_loadResult (s : State) (w : Word) : (s.setI w).loadResult = s.loadResult := rfl
@[simp] theorem State.setI_schedule (s : State) (w : Word) : (s.setI w).schedule = s.schedule := rfl
@[simp] theorem State.getV_setI (s : State) (w : Word) (y : Reg) : ((s.setI w).getV y) = s.getV y := rfl
@[simp] theorem State.readByte_setI (s : State) (w : Word) (j : Nat) : ((s.setI w).readByte j) = s.readByte j := rfl
@[simp] theorem State.slot_setI (s : State) (w : Word) (j : Fin 16) : ((s.setI w).slot j) = s.slot j := rfl
@[simp] theorem State.pressed_setI (s : State) (w : Word) (j : Key) : ((s.setI w).pressed j) = s.pressed j := rfl
@[simp] theorem State.pixel_setI (s : State) (w : Word) (x' : Col) (y' : Row) : ((s.setI w).pixel x' y') = s.pixel x' y' := rfl
@[simp] theorem State.halted_setI (s : State) (w : Word) : ((s.setI w).halted) = s.halted := rfl

/-! ### `State.setPc` -/

@[simp] theorem State.setPc_mem (s : State) (w : Word) : (s.setPc w).mem = s.mem := rfl
@[simp] theorem State.setPc_v (s : State) (w : Word) : (s.setPc w).v = s.v := rfl
@[simp] theorem State.setPc_i (s : State) (w : Word) : (s.setPc w).i = s.i := rfl
@[simp] theorem State.setPc_pc (s : State) (w : Word) : (s.setPc w).pc = w := rfl
@[simp] theorem State.setPc_stack (s : State) (w : Word) : (s.setPc w).stack = s.stack := rfl
@[simp] theorem State.setPc_sp (s : State) (w : Word) : (s.setPc w).sp = s.sp := rfl
@[simp] theorem State.setPc_dt (s : State) (w : Word) : (s.setPc w).dt = s.dt := rfl
@[simp] theorem State.setPc_st (s : State) (w : Word) : (s.setPc w).st = s.st := rfl
@[simp] theorem State.setPc_fb (s : State) (w : Word) : (s.setPc w).fb = s.fb := rfl
@[simp] theorem State.setPc_dirty (s : State) (w : Word) : (s.setPc w).dirty = s.dirty := rfl
@[simp] theorem State.setPc_key (s : State) (w : Word) : (s.setPc w).key = s.key := rfl
@[simp] theorem State.setPc_faultCause (s : State) (w : Word) : (s.setPc w).faultCause = s.faultCause := rfl
@[simp] theorem State.setPc_faultPc (s : State) (w : Word) : (s.setPc w).faultPc = s.faultPc := rfl
@[simp] theorem State.setPc_faultWord (s : State) (w : Word) : (s.setPc w).faultWord = s.faultWord := rfl
@[simp] theorem State.setPc_faultAddr (s : State) (w : Word) : (s.setPc w).faultAddr = s.faultAddr := rfl
@[simp] theorem State.setPc_rndCount (s : State) (w : Word) : (s.setPc w).rndCount = s.rndCount := rfl
@[simp] theorem State.setPc_output (s : State) (w : Word) : (s.setPc w).output = s.output := rfl
@[simp] theorem State.setPc_loadResult (s : State) (w : Word) : (s.setPc w).loadResult = s.loadResult := rfl
@[simp] theorem State.setPc_schedule (s : State) (w : Word) : (s.setPc w).schedule = s.schedule := rfl
@[simp] theorem State.getV_setPc (s : State) (w : Word) (y : Reg) : ((s.setPc w).getV y) = s.getV y := rfl
@[simp] theorem State.readByte_setPc (s : State) (w : Word) (j : Nat) : ((s.setPc w).readByte j) = s.readByte j := rfl
@[simp] theorem State.slot_setPc (s : State) (w : Word) (j : Fin 16) : ((s.setPc w).slot j) = s.slot j := rfl
@[simp] theorem State.pressed_setPc (s : State) (w : Word) (j : Key) : ((s.setPc w).pressed j) = s.pressed j := rfl
@[simp] theorem State.pixel_setPc (s : State) (w : Word) (x' : Col) (y' : Row) : ((s.setPc w).pixel x' y') = s.pixel x' y' := rfl
@[simp] theorem State.halted_setPc (s : State) (w : Word) : ((s.setPc w).halted) = s.halted := rfl

/-! ### `State.setStack` -/

@[simp] theorem State.setStack_mem (s : State) (k : Vector Word 16) : (s.setStack k).mem = s.mem := rfl
@[simp] theorem State.setStack_v (s : State) (k : Vector Word 16) : (s.setStack k).v = s.v := rfl
@[simp] theorem State.setStack_i (s : State) (k : Vector Word 16) : (s.setStack k).i = s.i := rfl
@[simp] theorem State.setStack_pc (s : State) (k : Vector Word 16) : (s.setStack k).pc = s.pc := rfl
@[simp] theorem State.setStack_stack (s : State) (k : Vector Word 16) : (s.setStack k).stack = k := rfl
@[simp] theorem State.setStack_sp (s : State) (k : Vector Word 16) : (s.setStack k).sp = s.sp := rfl
@[simp] theorem State.setStack_dt (s : State) (k : Vector Word 16) : (s.setStack k).dt = s.dt := rfl
@[simp] theorem State.setStack_st (s : State) (k : Vector Word 16) : (s.setStack k).st = s.st := rfl
@[simp] theorem State.setStack_fb (s : State) (k : Vector Word 16) : (s.setStack k).fb = s.fb := rfl
@[simp] theorem State.setStack_dirty (s : State) (k : Vector Word 16) : (s.setStack k).dirty = s.dirty := rfl
@[simp] theorem State.setStack_key (s : State) (k : Vector Word 16) : (s.setStack k).key = s.key := rfl
@[simp] theorem State.setStack_faultCause (s : State) (k : Vector Word 16) : (s.setStack k).faultCause = s.faultCause := rfl
@[simp] theorem State.setStack_faultPc (s : State) (k : Vector Word 16) : (s.setStack k).faultPc = s.faultPc := rfl
@[simp] theorem State.setStack_faultWord (s : State) (k : Vector Word 16) : (s.setStack k).faultWord = s.faultWord := rfl
@[simp] theorem State.setStack_faultAddr (s : State) (k : Vector Word 16) : (s.setStack k).faultAddr = s.faultAddr := rfl
@[simp] theorem State.setStack_rndCount (s : State) (k : Vector Word 16) : (s.setStack k).rndCount = s.rndCount := rfl
@[simp] theorem State.setStack_output (s : State) (k : Vector Word 16) : (s.setStack k).output = s.output := rfl
@[simp] theorem State.setStack_loadResult (s : State) (k : Vector Word 16) : (s.setStack k).loadResult = s.loadResult := rfl
@[simp] theorem State.setStack_schedule (s : State) (k : Vector Word 16) : (s.setStack k).schedule = s.schedule := rfl
@[simp] theorem State.getV_setStack (s : State) (k : Vector Word 16) (y : Reg) : ((s.setStack k).getV y) = s.getV y := rfl
@[simp] theorem State.readByte_setStack (s : State) (k : Vector Word 16) (j : Nat) : ((s.setStack k).readByte j) = s.readByte j := rfl
@[simp] theorem State.pressed_setStack (s : State) (k : Vector Word 16) (j : Key) : ((s.setStack k).pressed j) = s.pressed j := rfl
@[simp] theorem State.pixel_setStack (s : State) (k : Vector Word 16) (x' : Col) (y' : Row) : ((s.setStack k).pixel x' y') = s.pixel x' y' := rfl
@[simp] theorem State.halted_setStack (s : State) (k : Vector Word 16) : ((s.setStack k).halted) = s.halted := rfl

/-! ### `State.setSp` -/

@[simp] theorem State.setSp_mem (s : State) (n : Fin 17) : (s.setSp n).mem = s.mem := rfl
@[simp] theorem State.setSp_v (s : State) (n : Fin 17) : (s.setSp n).v = s.v := rfl
@[simp] theorem State.setSp_i (s : State) (n : Fin 17) : (s.setSp n).i = s.i := rfl
@[simp] theorem State.setSp_pc (s : State) (n : Fin 17) : (s.setSp n).pc = s.pc := rfl
@[simp] theorem State.setSp_stack (s : State) (n : Fin 17) : (s.setSp n).stack = s.stack := rfl
@[simp] theorem State.setSp_sp (s : State) (n : Fin 17) : (s.setSp n).sp = n := rfl
@[simp] theorem State.setSp_dt (s : State) (n : Fin 17) : (s.setSp n).dt = s.dt := rfl
@[simp] theorem State.setSp_st (s : State) (n : Fin 17) : (s.setSp n).st = s.st := rfl
@[simp] theorem State.setSp_fb (s : State) (n : Fin 17) : (s.setSp n).fb = s.fb := rfl
@[simp] theorem State.setSp_dirty (s : State) (n : Fin 17) : (s.setSp n).dirty = s.dirty := rfl
@[simp] theorem State.setSp_key (s : State) (n : Fin 17) : (s.setSp n).key = s.key := rfl
@[simp] theorem State.setSp_faultCause (s : State) (n : Fin 17) : (s.setSp n).faultCause = s.faultCause := rfl
@[simp] theorem State.setSp_faultPc (s : State) (n : Fin 17) : (s.setSp n).faultPc = s.faultPc := rfl
@[simp] theorem State.setSp_faultWord (s : State) (n : Fin 17) : (s.setSp n).faultWord = s.faultWord := rfl
@[simp] theorem State.setSp_faultAddr (s : State) (n : Fin 17) : (s.setSp n).faultAddr = s.faultAddr := rfl
@[simp] theorem State.setSp_rndCount (s : State) (n : Fin 17) : (s.setSp n).rndCount = s.rndCount := rfl
@[simp] theorem State.setSp_output (s : State) (n : Fin 17) : (s.setSp n).output = s.output := rfl
@[simp] theorem State.setSp_loadResult (s : State) (n : Fin 17) : (s.setSp n).loadResult = s.loadResult := rfl
@[simp] theorem State.setSp_schedule (s : State) (n : Fin 17) : (s.setSp n).schedule = s.schedule := rfl
@[simp] theorem State.getV_setSp (s : State) (n : Fin 17) (y : Reg) : ((s.setSp n).getV y) = s.getV y := rfl
@[simp] theorem State.readByte_setSp (s : State) (n : Fin 17) (j : Nat) : ((s.setSp n).readByte j) = s.readByte j := rfl
@[simp] theorem State.slot_setSp (s : State) (n : Fin 17) (j : Fin 16) : ((s.setSp n).slot j) = s.slot j := rfl
@[simp] theorem State.pressed_setSp (s : State) (n : Fin 17) (j : Key) : ((s.setSp n).pressed j) = s.pressed j := rfl
@[simp] theorem State.pixel_setSp (s : State) (n : Fin 17) (x' : Col) (y' : Row) : ((s.setSp n).pixel x' y') = s.pixel x' y' := rfl
@[simp] theorem State.halted_setSp (s : State) (n : Fin 17) : ((s.setSp n).halted) = s.halted := rfl

/-! ### `State.setDt` -/

@[simp] theorem State.setDt_mem (s : State) (b : Byte) : (s.setDt b).mem = s.mem := rfl
@[simp] theorem State.setDt_v (s : State) (b : Byte) : (s.setDt b).v = s.v := rfl
@[simp] theorem State.setDt_i (s : State) (b : Byte) : (s.setDt b).i = s.i := rfl
@[simp] theorem State.setDt_pc (s : State) (b : Byte) : (s.setDt b).pc = s.pc := rfl
@[simp] theorem State.setDt_stack (s : State) (b : Byte) : (s.setDt b).stack = s.stack := rfl
@[simp] theorem State.setDt_sp (s : State) (b : Byte) : (s.setDt b).sp = s.sp := rfl
@[simp] theorem State.setDt_dt (s : State) (b : Byte) : (s.setDt b).dt = b := rfl
@[simp] theorem State.setDt_st (s : State) (b : Byte) : (s.setDt b).st = s.st := rfl
@[simp] theorem State.setDt_fb (s : State) (b : Byte) : (s.setDt b).fb = s.fb := rfl
@[simp] theorem State.setDt_dirty (s : State) (b : Byte) : (s.setDt b).dirty = s.dirty := rfl
@[simp] theorem State.setDt_key (s : State) (b : Byte) : (s.setDt b).key = s.key := rfl
@[simp] theorem State.setDt_faultCause (s : State) (b : Byte) : (s.setDt b).faultCause = s.faultCause := rfl
@[simp] theorem State.setDt_faultPc (s : State) (b : Byte) : (s.setDt b).faultPc = s.faultPc := rfl
@[simp] theorem State.setDt_faultWord (s : State) (b : Byte) : (s.setDt b).faultWord = s.faultWord := rfl
@[simp] theorem State.setDt_faultAddr (s : State) (b : Byte) : (s.setDt b).faultAddr = s.faultAddr := rfl
@[simp] theorem State.setDt_rndCount (s : State) (b : Byte) : (s.setDt b).rndCount = s.rndCount := rfl
@[simp] theorem State.setDt_output (s : State) (b : Byte) : (s.setDt b).output = s.output := rfl
@[simp] theorem State.setDt_loadResult (s : State) (b : Byte) : (s.setDt b).loadResult = s.loadResult := rfl
@[simp] theorem State.setDt_schedule (s : State) (b : Byte) : (s.setDt b).schedule = s.schedule := rfl
@[simp] theorem State.getV_setDt (s : State) (b : Byte) (y : Reg) : ((s.setDt b).getV y) = s.getV y := rfl
@[simp] theorem State.readByte_setDt (s : State) (b : Byte) (j : Nat) : ((s.setDt b).readByte j) = s.readByte j := rfl
@[simp] theorem State.slot_setDt (s : State) (b : Byte) (j : Fin 16) : ((s.setDt b).slot j) = s.slot j := rfl
@[simp] theorem State.pressed_setDt (s : State) (b : Byte) (j : Key) : ((s.setDt b).pressed j) = s.pressed j := rfl
@[simp] theorem State.pixel_setDt (s : State) (b : Byte) (x' : Col) (y' : Row) : ((s.setDt b).pixel x' y') = s.pixel x' y' := rfl
@[simp] theorem State.halted_setDt (s : State) (b : Byte) : ((s.setDt b).halted) = s.halted := rfl

/-! ### `State.setSt` -/

@[simp] theorem State.setSt_mem (s : State) (b : Byte) : (s.setSt b).mem = s.mem := rfl
@[simp] theorem State.setSt_v (s : State) (b : Byte) : (s.setSt b).v = s.v := rfl
@[simp] theorem State.setSt_i (s : State) (b : Byte) : (s.setSt b).i = s.i := rfl
@[simp] theorem State.setSt_pc (s : State) (b : Byte) : (s.setSt b).pc = s.pc := rfl
@[simp] theorem State.setSt_stack (s : State) (b : Byte) : (s.setSt b).stack = s.stack := rfl
@[simp] theorem State.setSt_sp (s : State) (b : Byte) : (s.setSt b).sp = s.sp := rfl
@[simp] theorem State.setSt_dt (s : State) (b : Byte) : (s.setSt b).dt = s.dt := rfl
@[simp] theorem State.setSt_st (s : State) (b : Byte) : (s.setSt b).st = b := rfl
@[simp] theorem State.setSt_fb (s : State) (b : Byte) : (s.setSt b).fb = s.fb := rfl
@[simp] theorem State.setSt_dirty (s : State) (b : Byte) : (s.setSt b).dirty = s.dirty := rfl
@[simp] theorem State.setSt_key (s : State) (b : Byte) : (s.setSt b).key = s.key := rfl
@[simp] theorem State.setSt_faultCause (s : State) (b : Byte) : (s.setSt b).faultCause = s.faultCause := rfl
@[simp] theorem State.setSt_faultPc (s : State) (b : Byte) : (s.setSt b).faultPc = s.faultPc := rfl
@[simp] theorem State.setSt_faultWord (s : State) (b : Byte) : (s.setSt b).faultWord = s.faultWord := rfl
@[simp] theorem State.setSt_faultAddr (s : State) (b : Byte) : (s.setSt b).faultAddr = s.faultAddr := rfl
@[simp] theorem State.setSt_rndCount (s : State) (b : Byte) : (s.setSt b).rndCount = s.rndCount := rfl
@[simp] theorem State.setSt_output (s : State) (b : Byte) : (s.setSt b).output = s.output := rfl
@[simp] theorem State.setSt_loadResult (s : State) (b : Byte) : (s.setSt b).loadResult = s.loadResult := rfl
@[simp] theorem State.setSt_schedule (s : State) (b : Byte) : (s.setSt b).schedule = s.schedule := rfl
@[simp] theorem State.getV_setSt (s : State) (b : Byte) (y : Reg) : ((s.setSt b).getV y) = s.getV y := rfl
@[simp] theorem State.readByte_setSt (s : State) (b : Byte) (j : Nat) : ((s.setSt b).readByte j) = s.readByte j := rfl
@[simp] theorem State.slot_setSt (s : State) (b : Byte) (j : Fin 16) : ((s.setSt b).slot j) = s.slot j := rfl
@[simp] theorem State.pressed_setSt (s : State) (b : Byte) (j : Key) : ((s.setSt b).pressed j) = s.pressed j := rfl
@[simp] theorem State.pixel_setSt (s : State) (b : Byte) (x' : Col) (y' : Row) : ((s.setSt b).pixel x' y') = s.pixel x' y' := rfl
@[simp] theorem State.halted_setSt (s : State) (b : Byte) : ((s.setSt b).halted) = s.halted := rfl

/-! ### `State.setFb` -/

@[simp] theorem State.setFb_mem (s : State) (f : Vector (Vector Bool 64) 32) : (s.setFb f).mem = s.mem := rfl
@[simp] theorem State.setFb_v (s : State) (f : Vector (Vector Bool 64) 32) : (s.setFb f).v = s.v := rfl
@[simp] theorem State.setFb_i (s : State) (f : Vector (Vector Bool 64) 32) : (s.setFb f).i = s.i := rfl
@[simp] theorem State.setFb_pc (s : State) (f : Vector (Vector Bool 64) 32) : (s.setFb f).pc = s.pc := rfl
@[simp] theorem State.setFb_stack (s : State) (f : Vector (Vector Bool 64) 32) : (s.setFb f).stack = s.stack := rfl
@[simp] theorem State.setFb_sp (s : State) (f : Vector (Vector Bool 64) 32) : (s.setFb f).sp = s.sp := rfl
@[simp] theorem State.setFb_dt (s : State) (f : Vector (Vector Bool 64) 32) : (s.setFb f).dt = s.dt := rfl
@[simp] theorem State.setFb_st (s : State) (f : Vector (Vector Bool 64) 32) : (s.setFb f).st = s.st := rfl
@[simp] theorem State.setFb_fb (s : State) (f : Vector (Vector Bool 64) 32) : (s.setFb f).fb = f := rfl
@[simp] theorem State.setFb_dirty (s : State) (f : Vector (Vector Bool 64) 32) : (s.setFb f).dirty = s.dirty := rfl
@[simp] theorem State.setFb_key (s : State) (f : Vector (Vector Bool 64) 32) : (s.setFb f).key = s.key := rfl
@[simp] theorem State.setFb_faultCause (s : State) (f : Vector (Vector Bool 64) 32) : (s.setFb f).faultCause = s.faultCause := rfl
@[simp] theorem State.setFb_faultPc (s : State) (f : Vector (Vector Bool 64) 32) : (s.setFb f).faultPc = s.faultPc := rfl
@[simp] theorem State.setFb_faultWord (s : State) (f : Vector (Vector Bool 64) 32) : (s.setFb f).faultWord = s.faultWord := rfl
@[simp] theorem State.setFb_faultAddr (s : State) (f : Vector (Vector Bool 64) 32) : (s.setFb f).faultAddr = s.faultAddr := rfl
@[simp] theorem State.setFb_rndCount (s : State) (f : Vector (Vector Bool 64) 32) : (s.setFb f).rndCount = s.rndCount := rfl
@[simp] theorem State.setFb_output (s : State) (f : Vector (Vector Bool 64) 32) : (s.setFb f).output = s.output := rfl
@[simp] theorem State.setFb_loadResult (s : State) (f : Vector (Vector Bool 64) 32) : (s.setFb f).loadResult = s.loadResult := rfl
@[simp] theorem State.setFb_schedule (s : State) (f : Vector (Vector Bool 64) 32) : (s.setFb f).schedule = s.schedule := rfl
@[simp] theorem State.getV_setFb (s : State) (f : Vector (Vector Bool 64) 32) (y : Reg) : ((s.setFb f).getV y) = s.getV y := rfl
@[simp] theorem State.readByte_setFb (s : State) (f : Vector (Vector Bool 64) 32) (j : Nat) : ((s.setFb f).readByte j) = s.readByte j := rfl
@[simp] theorem State.slot_setFb (s : State) (f : Vector (Vector Bool 64) 32) (j : Fin 16) : ((s.setFb f).slot j) = s.slot j := rfl
@[simp] theorem State.pressed_setFb (s : State) (f : Vector (Vector Bool 64) 32) (j : Key) : ((s.setFb f).pressed j) = s.pressed j := rfl
@[simp] theorem State.halted_setFb (s : State) (f : Vector (Vector Bool 64) 32) : ((s.setFb f).halted) = s.halted := rfl

/-! ### `State.setDirty` -/

@[simp] theorem State.setDirty_mem (s : State) (d : Bool) : (s.setDirty d).mem = s.mem := rfl
@[simp] theorem State.setDirty_v (s : State) (d : Bool) : (s.setDirty d).v = s.v := rfl
@[simp] theorem State.setDirty_i (s : State) (d : Bool) : (s.setDirty d).i = s.i := rfl
@[simp] theorem State.setDirty_pc (s : State) (d : Bool) : (s.setDirty d).pc = s.pc := rfl
@[simp] theorem State.setDirty_stack (s : State) (d : Bool) : (s.setDirty d).stack = s.stack := rfl
@[simp] theorem State.setDirty_sp (s : State) (d : Bool) : (s.setDirty d).sp = s.sp := rfl
@[simp] theorem State.setDirty_dt (s : State) (d : Bool) : (s.setDirty d).dt = s.dt := rfl
@[simp] theorem State.setDirty_st (s : State) (d : Bool) : (s.setDirty d).st = s.st := rfl
@[simp] theorem State.setDirty_fb (s : State) (d : Bool) : (s.setDirty d).fb = s.fb := rfl
@[simp] theorem State.setDirty_dirty (s : State) (d : Bool) : (s.setDirty d).dirty = d := rfl
@[simp] theorem State.setDirty_key (s : State) (d : Bool) : (s.setDirty d).key = s.key := rfl
@[simp] theorem State.setDirty_faultCause (s : State) (d : Bool) : (s.setDirty d).faultCause = s.faultCause := rfl
@[simp] theorem State.setDirty_faultPc (s : State) (d : Bool) : (s.setDirty d).faultPc = s.faultPc := rfl
@[simp] theorem State.setDirty_faultWord (s : State) (d : Bool) : (s.setDirty d).faultWord = s.faultWord := rfl
@[simp] theorem State.setDirty_faultAddr (s : State) (d : Bool) : (s.setDirty d).faultAddr = s.faultAddr := rfl
@[simp] theorem State.setDirty_rndCount (s : State) (d : Bool) : (s.setDirty d).rndCount = s.rndCount := rfl
@[simp] theorem State.setDirty_output (s : State) (d : Bool) : (s.setDirty d).output = s.output := rfl
@[simp] theorem State.setDirty_loadResult (s : State) (d : Bool) : (s.setDirty d).loadResult = s.loadResult := rfl
@[simp] theorem State.setDirty_schedule (s : State) (d : Bool) : (s.setDirty d).schedule = s.schedule := rfl
@[simp] theorem State.getV_setDirty (s : State) (d : Bool) (y : Reg) : ((s.setDirty d).getV y) = s.getV y := rfl
@[simp] theorem State.readByte_setDirty (s : State) (d : Bool) (j : Nat) : ((s.setDirty d).readByte j) = s.readByte j := rfl
@[simp] theorem State.slot_setDirty (s : State) (d : Bool) (j : Fin 16) : ((s.setDirty d).slot j) = s.slot j := rfl
@[simp] theorem State.pressed_setDirty (s : State) (d : Bool) (j : Key) : ((s.setDirty d).pressed j) = s.pressed j := rfl
@[simp] theorem State.pixel_setDirty (s : State) (d : Bool) (x' : Col) (y' : Row) : ((s.setDirty d).pixel x' y') = s.pixel x' y' := rfl
@[simp] theorem State.halted_setDirty (s : State) (d : Bool) : ((s.setDirty d).halted) = s.halted := rfl

/-! ### `State.setKeys` -/

@[simp] theorem State.setKeys_mem (s : State) (k : Vector Bool 16) : (s.setKeys k).mem = s.mem := rfl
@[simp] theorem State.setKeys_v (s : State) (k : Vector Bool 16) : (s.setKeys k).v = s.v := rfl
@[simp] theorem State.setKeys_i (s : State) (k : Vector Bool 16) : (s.setKeys k).i = s.i := rfl
@[simp] theorem State.setKeys_pc (s : State) (k : Vector Bool 16) : (s.setKeys k).pc = s.pc := rfl
@[simp] theorem State.setKeys_stack (s : State) (k : Vector Bool 16) : (s.setKeys k).stack = s.stack := rfl
@[simp] theorem State.setKeys_sp (s : State) (k : Vector Bool 16) : (s.setKeys k).sp = s.sp := rfl
@[simp] theorem State.setKeys_dt (s : State) (k : Vector Bool 16) : (s.setKeys k).dt = s.dt := rfl
@[simp] theorem State.setKeys_st (s : State) (k : Vector Bool 16) : (s.setKeys k).st = s.st := rfl
@[simp] theorem State.setKeys_fb (s : State) (k : Vector Bool 16) : (s.setKeys k).fb = s.fb := rfl
@[simp] theorem State.setKeys_dirty (s : State) (k : Vector Bool 16) : (s.setKeys k).dirty = s.dirty := rfl
@[simp] theorem State.setKeys_key (s : State) (k : Vector Bool 16) : (s.setKeys k).key = k := rfl
@[simp] theorem State.setKeys_faultCause (s : State) (k : Vector Bool 16) : (s.setKeys k).faultCause = s.faultCause := rfl
@[simp] theorem State.setKeys_faultPc (s : State) (k : Vector Bool 16) : (s.setKeys k).faultPc = s.faultPc := rfl
@[simp] theorem State.setKeys_faultWord (s : State) (k : Vector Bool 16) : (s.setKeys k).faultWord = s.faultWord := rfl
@[simp] theorem State.setKeys_faultAddr (s : State) (k : Vector Bool 16) : (s.setKeys k).faultAddr = s.faultAddr := rfl
@[simp] theorem State.setKeys_rndCount (s : State) (k : Vector Bool 16) : (s.setKeys k).rndCount = s.rndCount := rfl
@[simp] theorem State.setKeys_output (s : State) (k : Vector Bool 16) : (s.setKeys k).output = s.output := rfl
@[simp] theorem State.setKeys_loadResult (s : State) (k : Vector Bool 16) : (s.setKeys k).loadResult = s.loadResult := rfl
@[simp] theorem State.setKeys_schedule (s : State) (k : Vector Bool 16) : (s.setKeys k).schedule = s.schedule := rfl
@[simp] theorem State.getV_setKeys (s : State) (k : Vector Bool 16) (y : Reg) : ((s.setKeys k).getV y) = s.getV y := rfl
@[simp] theorem State.readByte_setKeys (s : State) (k : Vector Bool 16) (j : Nat) : ((s.setKeys k).readByte j) = s.readByte j := rfl
@[simp] theorem State.slot_setKeys (s : State) (k : Vector Bool 16) (j : Fin 16) : ((s.setKeys k).slot j) = s.slot j := rfl
@[simp] theorem State.pixel_setKeys (s : State) (k : Vector Bool 16) (x' : Col) (y' : Row) : ((s.setKeys k).pixel x' y') = s.pixel x' y' := rfl
@[simp] theorem State.halted_setKeys (s : State) (k : Vector Bool 16) : ((s.setKeys k).halted) = s.halted := rfl

/-! ### `State.setMem` -/

@[simp] theorem State.setMem_mem (s : State) (m : Memory) : (s.setMem m).mem = m := rfl
@[simp] theorem State.setMem_v (s : State) (m : Memory) : (s.setMem m).v = s.v := rfl
@[simp] theorem State.setMem_i (s : State) (m : Memory) : (s.setMem m).i = s.i := rfl
@[simp] theorem State.setMem_pc (s : State) (m : Memory) : (s.setMem m).pc = s.pc := rfl
@[simp] theorem State.setMem_stack (s : State) (m : Memory) : (s.setMem m).stack = s.stack := rfl
@[simp] theorem State.setMem_sp (s : State) (m : Memory) : (s.setMem m).sp = s.sp := rfl
@[simp] theorem State.setMem_dt (s : State) (m : Memory) : (s.setMem m).dt = s.dt := rfl
@[simp] theorem State.setMem_st (s : State) (m : Memory) : (s.setMem m).st = s.st := rfl
@[simp] theorem State.setMem_fb (s : State) (m : Memory) : (s.setMem m).fb = s.fb := rfl
@[simp] theorem State.setMem_dirty (s : State) (m : Memory) : (s.setMem m).dirty = s.dirty := rfl
@[simp] theorem State.setMem_key (s : State) (m : Memory) : (s.setMem m).key = s.key := rfl
@[simp] theorem State.setMem_faultCause (s : State) (m : Memory) : (s.setMem m).faultCause = s.faultCause := rfl
@[simp] theorem State.setMem_faultPc (s : State) (m : Memory) : (s.setMem m).faultPc = s.faultPc := rfl
@[simp] theorem State.setMem_faultWord (s : State) (m : Memory) : (s.setMem m).faultWord = s.faultWord := rfl
@[simp] theorem State.setMem_faultAddr (s : State) (m : Memory) : (s.setMem m).faultAddr = s.faultAddr := rfl
@[simp] theorem State.setMem_rndCount (s : State) (m : Memory) : (s.setMem m).rndCount = s.rndCount := rfl
@[simp] theorem State.setMem_output (s : State) (m : Memory) : (s.setMem m).output = s.output := rfl
@[simp] theorem State.setMem_loadResult (s : State) (m : Memory) : (s.setMem m).loadResult = s.loadResult := rfl
@[simp] theorem State.setMem_schedule (s : State) (m : Memory) : (s.setMem m).schedule = s.schedule := rfl
@[simp] theorem State.getV_setMem (s : State) (m : Memory) (y : Reg) : ((s.setMem m).getV y) = s.getV y := rfl
@[simp] theorem State.slot_setMem (s : State) (m : Memory) (j : Fin 16) : ((s.setMem m).slot j) = s.slot j := rfl
@[simp] theorem State.pressed_setMem (s : State) (m : Memory) (j : Key) : ((s.setMem m).pressed j) = s.pressed j := rfl
@[simp] theorem State.pixel_setMem (s : State) (m : Memory) (x' : Col) (y' : Row) : ((s.setMem m).pixel x' y') = s.pixel x' y' := rfl
@[simp] theorem State.halted_setMem (s : State) (m : Memory) : ((s.setMem m).halted) = s.halted := rfl

/-! ### `State.setFault` -/

@[simp] theorem State.setFault_mem (s : State) (c : FaultCause) (p w a : Word) : (s.setFault c p w a).mem = s.mem := rfl
@[simp] theorem State.setFault_v (s : State) (c : FaultCause) (p w a : Word) : (s.setFault c p w a).v = s.v := rfl
@[simp] theorem State.setFault_i (s : State) (c : FaultCause) (p w a : Word) : (s.setFault c p w a).i = s.i := rfl
@[simp] theorem State.setFault_pc (s : State) (c : FaultCause) (p w a : Word) : (s.setFault c p w a).pc = s.pc := rfl
@[simp] theorem State.setFault_stack (s : State) (c : FaultCause) (p w a : Word) : (s.setFault c p w a).stack = s.stack := rfl
@[simp] theorem State.setFault_sp (s : State) (c : FaultCause) (p w a : Word) : (s.setFault c p w a).sp = s.sp := rfl
@[simp] theorem State.setFault_dt (s : State) (c : FaultCause) (p w a : Word) : (s.setFault c p w a).dt = s.dt := rfl
@[simp] theorem State.setFault_st (s : State) (c : FaultCause) (p w a : Word) : (s.setFault c p w a).st = s.st := rfl
@[simp] theorem State.setFault_fb (s : State) (c : FaultCause) (p w a : Word) : (s.setFault c p w a).fb = s.fb := rfl
@[simp] theorem State.setFault_dirty (s : State) (c : FaultCause) (p w a : Word) : (s.setFault c p w a).dirty = s.dirty := rfl
@[simp] theorem State.setFault_key (s : State) (c : FaultCause) (p w a : Word) : (s.setFault c p w a).key = s.key := rfl
@[simp] theorem State.setFault_faultCause (s : State) (c : FaultCause) (p w a : Word) : (s.setFault c p w a).faultCause = c := rfl
@[simp] theorem State.setFault_faultPc (s : State) (c : FaultCause) (p w a : Word) : (s.setFault c p w a).faultPc = p := rfl
@[simp] theorem State.setFault_faultWord (s : State) (c : FaultCause) (p w a : Word) : (s.setFault c p w a).faultWord = w := rfl
@[simp] theorem State.setFault_faultAddr (s : State) (c : FaultCause) (p w a : Word) : (s.setFault c p w a).faultAddr = a := rfl
@[simp] theorem State.setFault_rndCount (s : State) (c : FaultCause) (p w a : Word) : (s.setFault c p w a).rndCount = s.rndCount := rfl
@[simp] theorem State.setFault_output (s : State) (c : FaultCause) (p w a : Word) : (s.setFault c p w a).output = s.output := rfl
@[simp] theorem State.setFault_loadResult (s : State) (c : FaultCause) (p w a : Word) : (s.setFault c p w a).loadResult = s.loadResult := rfl
@[simp] theorem State.setFault_schedule (s : State) (c : FaultCause) (p w a : Word) : (s.setFault c p w a).schedule = s.schedule := rfl
@[simp] theorem State.getV_setFault (s : State) (c : FaultCause) (p w a : Word) (y : Reg) : ((s.setFault c p w a).getV y) = s.getV y := rfl
@[simp] theorem State.readByte_setFault (s : State) (c : FaultCause) (p w a : Word) (j : Nat) : ((s.setFault c p w a).readByte j) = s.readByte j := rfl
@[simp] theorem State.slot_setFault (s : State) (c : FaultCause) (p w a : Word) (j : Fin 16) : ((s.setFault c p w a).slot j) = s.slot j := rfl
@[simp] theorem State.pressed_setFault (s : State) (c : FaultCause) (p w a : Word) (j : Key) : ((s.setFault c p w a).pressed j) = s.pressed j := rfl
@[simp] theorem State.pixel_setFault (s : State) (c : FaultCause) (p w a : Word) (x' : Col) (y' : Row) : ((s.setFault c p w a).pixel x' y') = s.pixel x' y' := rfl

/-! ### `State.setOutput` -/

@[simp] theorem State.setOutput_mem (s : State) (o : Option StepOutput) : (s.setOutput o).mem = s.mem := rfl
@[simp] theorem State.setOutput_v (s : State) (o : Option StepOutput) : (s.setOutput o).v = s.v := rfl
@[simp] theorem State.setOutput_i (s : State) (o : Option StepOutput) : (s.setOutput o).i = s.i := rfl
@[simp] theorem State.setOutput_pc (s : State) (o : Option StepOutput) : (s.setOutput o).pc = s.pc := rfl
@[simp] theorem State.setOutput_stack (s : State) (o : Option StepOutput) : (s.setOutput o).stack = s.stack := rfl
@[simp] theorem State.setOutput_sp (s : State) (o : Option StepOutput) : (s.setOutput o).sp = s.sp := rfl
@[simp] theorem State.setOutput_dt (s : State) (o : Option StepOutput) : (s.setOutput o).dt = s.dt := rfl
@[simp] theorem State.setOutput_st (s : State) (o : Option StepOutput) : (s.setOutput o).st = s.st := rfl
@[simp] theorem State.setOutput_fb (s : State) (o : Option StepOutput) : (s.setOutput o).fb = s.fb := rfl
@[simp] theorem State.setOutput_dirty (s : State) (o : Option StepOutput) : (s.setOutput o).dirty = s.dirty := rfl
@[simp] theorem State.setOutput_key (s : State) (o : Option StepOutput) : (s.setOutput o).key = s.key := rfl
@[simp] theorem State.setOutput_faultCause (s : State) (o : Option StepOutput) : (s.setOutput o).faultCause = s.faultCause := rfl
@[simp] theorem State.setOutput_faultPc (s : State) (o : Option StepOutput) : (s.setOutput o).faultPc = s.faultPc := rfl
@[simp] theorem State.setOutput_faultWord (s : State) (o : Option StepOutput) : (s.setOutput o).faultWord = s.faultWord := rfl
@[simp] theorem State.setOutput_faultAddr (s : State) (o : Option StepOutput) : (s.setOutput o).faultAddr = s.faultAddr := rfl
@[simp] theorem State.setOutput_rndCount (s : State) (o : Option StepOutput) : (s.setOutput o).rndCount = s.rndCount := rfl
@[simp] theorem State.setOutput_output (s : State) (o : Option StepOutput) : (s.setOutput o).output = o := rfl
@[simp] theorem State.setOutput_loadResult (s : State) (o : Option StepOutput) : (s.setOutput o).loadResult = s.loadResult := rfl
@[simp] theorem State.setOutput_schedule (s : State) (o : Option StepOutput) : (s.setOutput o).schedule = s.schedule := rfl
@[simp] theorem State.getV_setOutput (s : State) (o : Option StepOutput) (y : Reg) : ((s.setOutput o).getV y) = s.getV y := rfl
@[simp] theorem State.readByte_setOutput (s : State) (o : Option StepOutput) (j : Nat) : ((s.setOutput o).readByte j) = s.readByte j := rfl
@[simp] theorem State.slot_setOutput (s : State) (o : Option StepOutput) (j : Fin 16) : ((s.setOutput o).slot j) = s.slot j := rfl
@[simp] theorem State.pressed_setOutput (s : State) (o : Option StepOutput) (j : Key) : ((s.setOutput o).pressed j) = s.pressed j := rfl
@[simp] theorem State.pixel_setOutput (s : State) (o : Option StepOutput) (x' : Col) (y' : Row) : ((s.setOutput o).pixel x' y') = s.pixel x' y' := rfl
@[simp] theorem State.halted_setOutput (s : State) (o : Option StepOutput) : ((s.setOutput o).halted) = s.halted := rfl

/-! ### `State.setLoadResult` -/

@[simp] theorem State.setLoadResult_mem (s : State) (r : Option LoadResult) : (s.setLoadResult r).mem = s.mem := rfl
@[simp] theorem State.setLoadResult_v (s : State) (r : Option LoadResult) : (s.setLoadResult r).v = s.v := rfl
@[simp] theorem State.setLoadResult_i (s : State) (r : Option LoadResult) : (s.setLoadResult r).i = s.i := rfl
@[simp] theorem State.setLoadResult_pc (s : State) (r : Option LoadResult) : (s.setLoadResult r).pc = s.pc := rfl
@[simp] theorem State.setLoadResult_stack (s : State) (r : Option LoadResult) : (s.setLoadResult r).stack = s.stack := rfl
@[simp] theorem State.setLoadResult_sp (s : State) (r : Option LoadResult) : (s.setLoadResult r).sp = s.sp := rfl
@[simp] theorem State.setLoadResult_dt (s : State) (r : Option LoadResult) : (s.setLoadResult r).dt = s.dt := rfl
@[simp] theorem State.setLoadResult_st (s : State) (r : Option LoadResult) : (s.setLoadResult r).st = s.st := rfl
@[simp] theorem State.setLoadResult_fb (s : State) (r : Option LoadResult) : (s.setLoadResult r).fb = s.fb := rfl
@[simp] theorem State.setLoadResult_dirty (s : State) (r : Option LoadResult) : (s.setLoadResult r).dirty = s.dirty := rfl
@[simp] theorem State.setLoadResult_key (s : State) (r : Option LoadResult) : (s.setLoadResult r).key = s.key := rfl
@[simp] theorem State.setLoadResult_faultCause (s : State) (r : Option LoadResult) : (s.setLoadResult r).faultCause = s.faultCause := rfl
@[simp] theorem State.setLoadResult_faultPc (s : State) (r : Option LoadResult) : (s.setLoadResult r).faultPc = s.faultPc := rfl
@[simp] theorem State.setLoadResult_faultWord (s : State) (r : Option LoadResult) : (s.setLoadResult r).faultWord = s.faultWord := rfl
@[simp] theorem State.setLoadResult_faultAddr (s : State) (r : Option LoadResult) : (s.setLoadResult r).faultAddr = s.faultAddr := rfl
@[simp] theorem State.setLoadResult_rndCount (s : State) (r : Option LoadResult) : (s.setLoadResult r).rndCount = s.rndCount := rfl
@[simp] theorem State.setLoadResult_output (s : State) (r : Option LoadResult) : (s.setLoadResult r).output = s.output := rfl
@[simp] theorem State.setLoadResult_loadResult (s : State) (r : Option LoadResult) : (s.setLoadResult r).loadResult = r := rfl
@[simp] theorem State.setLoadResult_schedule (s : State) (r : Option LoadResult) : (s.setLoadResult r).schedule = s.schedule := rfl
@[simp] theorem State.getV_setLoadResult (s : State) (r : Option LoadResult) (y : Reg) : ((s.setLoadResult r).getV y) = s.getV y := rfl
@[simp] theorem State.readByte_setLoadResult (s : State) (r : Option LoadResult) (j : Nat) : ((s.setLoadResult r).readByte j) = s.readByte j := rfl
@[simp] theorem State.slot_setLoadResult (s : State) (r : Option LoadResult) (j : Fin 16) : ((s.setLoadResult r).slot j) = s.slot j := rfl
@[simp] theorem State.pressed_setLoadResult (s : State) (r : Option LoadResult) (j : Key) : ((s.setLoadResult r).pressed j) = s.pressed j := rfl
@[simp] theorem State.pixel_setLoadResult (s : State) (r : Option LoadResult) (x' : Col) (y' : Row) : ((s.setLoadResult r).pixel x' y') = s.pixel x' y' := rfl
@[simp] theorem State.halted_setLoadResult (s : State) (r : Option LoadResult) : ((s.setLoadResult r).halted) = s.halted := rfl

/-! ### `State.setSchedule` -/

@[simp] theorem State.setSchedule_mem (s : State) (l : List Operation) : (s.setSchedule l).mem = s.mem := rfl
@[simp] theorem State.setSchedule_v (s : State) (l : List Operation) : (s.setSchedule l).v = s.v := rfl
@[simp] theorem State.setSchedule_i (s : State) (l : List Operation) : (s.setSchedule l).i = s.i := rfl
@[simp] theorem State.setSchedule_pc (s : State) (l : List Operation) : (s.setSchedule l).pc = s.pc := rfl
@[simp] theorem State.setSchedule_stack (s : State) (l : List Operation) : (s.setSchedule l).stack = s.stack := rfl
@[simp] theorem State.setSchedule_sp (s : State) (l : List Operation) : (s.setSchedule l).sp = s.sp := rfl
@[simp] theorem State.setSchedule_dt (s : State) (l : List Operation) : (s.setSchedule l).dt = s.dt := rfl
@[simp] theorem State.setSchedule_st (s : State) (l : List Operation) : (s.setSchedule l).st = s.st := rfl
@[simp] theorem State.setSchedule_fb (s : State) (l : List Operation) : (s.setSchedule l).fb = s.fb := rfl
@[simp] theorem State.setSchedule_dirty (s : State) (l : List Operation) : (s.setSchedule l).dirty = s.dirty := rfl
@[simp] theorem State.setSchedule_key (s : State) (l : List Operation) : (s.setSchedule l).key = s.key := rfl
@[simp] theorem State.setSchedule_faultCause (s : State) (l : List Operation) : (s.setSchedule l).faultCause = s.faultCause := rfl
@[simp] theorem State.setSchedule_faultPc (s : State) (l : List Operation) : (s.setSchedule l).faultPc = s.faultPc := rfl
@[simp] theorem State.setSchedule_faultWord (s : State) (l : List Operation) : (s.setSchedule l).faultWord = s.faultWord := rfl
@[simp] theorem State.setSchedule_faultAddr (s : State) (l : List Operation) : (s.setSchedule l).faultAddr = s.faultAddr := rfl
@[simp] theorem State.setSchedule_rndCount (s : State) (l : List Operation) : (s.setSchedule l).rndCount = s.rndCount := rfl
@[simp] theorem State.setSchedule_output (s : State) (l : List Operation) : (s.setSchedule l).output = s.output := rfl
@[simp] theorem State.setSchedule_loadResult (s : State) (l : List Operation) : (s.setSchedule l).loadResult = s.loadResult := rfl
@[simp] theorem State.setSchedule_schedule (s : State) (l : List Operation) : (s.setSchedule l).schedule = l := rfl
@[simp] theorem State.getV_setSchedule (s : State) (l : List Operation) (y : Reg) : ((s.setSchedule l).getV y) = s.getV y := rfl
@[simp] theorem State.readByte_setSchedule (s : State) (l : List Operation) (j : Nat) : ((s.setSchedule l).readByte j) = s.readByte j := rfl
@[simp] theorem State.slot_setSchedule (s : State) (l : List Operation) (j : Fin 16) : ((s.setSchedule l).slot j) = s.slot j := rfl
@[simp] theorem State.pressed_setSchedule (s : State) (l : List Operation) (j : Key) : ((s.setSchedule l).pressed j) = s.pressed j := rfl
@[simp] theorem State.pixel_setSchedule (s : State) (l : List Operation) (x' : Col) (y' : Row) : ((s.setSchedule l).pixel x' y') = s.pixel x' y' := rfl
@[simp] theorem State.halted_setSchedule (s : State) (l : List Operation) : ((s.setSchedule l).halted) = s.halted := rfl

/-! ### `State.countDraw` -/

@[simp] theorem State.countDraw_mem (s : State) : s.countDraw.mem = s.mem := rfl
@[simp] theorem State.countDraw_v (s : State) : s.countDraw.v = s.v := rfl
@[simp] theorem State.countDraw_i (s : State) : s.countDraw.i = s.i := rfl
@[simp] theorem State.countDraw_pc (s : State) : s.countDraw.pc = s.pc := rfl
@[simp] theorem State.countDraw_stack (s : State) : s.countDraw.stack = s.stack := rfl
@[simp] theorem State.countDraw_sp (s : State) : s.countDraw.sp = s.sp := rfl
@[simp] theorem State.countDraw_dt (s : State) : s.countDraw.dt = s.dt := rfl
@[simp] theorem State.countDraw_st (s : State) : s.countDraw.st = s.st := rfl
@[simp] theorem State.countDraw_fb (s : State) : s.countDraw.fb = s.fb := rfl
@[simp] theorem State.countDraw_dirty (s : State) : s.countDraw.dirty = s.dirty := rfl
@[simp] theorem State.countDraw_key (s : State) : s.countDraw.key = s.key := rfl
@[simp] theorem State.countDraw_faultCause (s : State) : s.countDraw.faultCause = s.faultCause := rfl
@[simp] theorem State.countDraw_faultPc (s : State) : s.countDraw.faultPc = s.faultPc := rfl
@[simp] theorem State.countDraw_faultWord (s : State) : s.countDraw.faultWord = s.faultWord := rfl
@[simp] theorem State.countDraw_faultAddr (s : State) : s.countDraw.faultAddr = s.faultAddr := rfl
@[simp] theorem State.countDraw_rndCount (s : State) : s.countDraw.rndCount = s.rndCount + 1 := rfl
@[simp] theorem State.countDraw_output (s : State) : s.countDraw.output = s.output := rfl
@[simp] theorem State.countDraw_loadResult (s : State) : s.countDraw.loadResult = s.loadResult := rfl
@[simp] theorem State.countDraw_schedule (s : State) : s.countDraw.schedule = s.schedule := rfl
@[simp] theorem State.getV_countDraw (s : State) (y : Reg) : ((s.countDraw).getV y) = s.getV y := rfl
@[simp] theorem State.readByte_countDraw (s : State) (j : Nat) : ((s.countDraw).readByte j) = s.readByte j := rfl
@[simp] theorem State.slot_countDraw (s : State) (j : Fin 16) : ((s.countDraw).slot j) = s.slot j := rfl
@[simp] theorem State.pressed_countDraw (s : State) (j : Key) : ((s.countDraw).pressed j) = s.pressed j := rfl
@[simp] theorem State.pixel_countDraw (s : State) (x' : Col) (y' : Row) : ((s.countDraw).pixel x' y') = s.pixel x' y' := rfl
@[simp] theorem State.halted_countDraw (s : State) : ((s.countDraw).halted) = s.halted := rfl

/-! ### Arrays, entry by entry -/

/-- The register that is written holds the value, every other keeps its own. -/
theorem State.getV_setV (s : State) (x y : Reg) (b : Byte) : (s.setV x b).getV y = if y = x then b else s.getV y := by
  by_cases h : y = x
  · subst h; simp [State.getV]
  · have h' : x.val ≠ y.val := fun e => h (Fin.ext e.symm)
    simp [State.getV, h, Vector.getElem_set_ne, h']

@[simp] theorem State.getV_setV_self (s : State) (x : Reg) (b : Byte) : (s.setV x b).getV x = b := by
  simp [State.getV_setV]

theorem State.getV_setV_ne (s : State) {x y : Reg} (b : Byte) (h : y ≠ x) : (s.setV x b).getV y = s.getV y := by
  simp [State.getV_setV, h]

@[simp] theorem State.getV_setAllV (s : State) (v : Vector Byte 16) (y : Reg) : (s.setAllV v).getV y = v[y.val] := rfl

@[simp] theorem State.readByte_setMem (s : State) (m : Memory) (n : Nat) :
    (s.setMem m).readByte n = Memory.read m n := rfl

@[simp] theorem State.slot_setStack (s : State) (k : Vector Word 16) (j : Fin 16) :
    (s.setStack k).slot j = k[j.val] := rfl

@[simp] theorem State.pressed_setKeys (s : State) (k : Vector Bool 16) (j : Key) :
    (s.setKeys k).pressed j = k[j.val] := rfl

@[simp] theorem State.pixel_setFb (s : State) (f : Vector (Vector Bool 64) 32) (x : Col) (y : Row) :
    (s.setFb f).pixel x y = f[y.val][x.val] := rfl

end Sys2Proof.Machine
end

