-- ==== Sys2Proof/Laws/Ops.lean ====
section
/-! SUPPORT. What each shared operation can do, said once. -/

namespace Sys2Proof.Machine

/-! ### How an instruction ends -/

theorem goto_fits {n : Nat} (s : State) (h : n < 0x10000) : goto n s = .next (s.setPc (BitVec.ofNat 16 n)) := by
  simp [goto, onWord, h]

/-- `goto` answers a next state only with PC at the integer it was given. -/
theorem goto_next {n : Nat} {s t : State} (h : goto n s = .next t) :
    n < 0x10000 ∧ t = s.setPc (BitVec.ofNat 16 n) := by
  unfold goto onWord at h
  split at h
  · exact ⟨‹_›, by cases h; rfl⟩
  · cases h

theorem toNat_ofNat_word {n : Nat} (h : n < 0x10000) : (BitVec.ofNat 16 n).toNat = n := by
  simp only [BitVec.toNat_ofNat]; omega

theorem onWord_fits {n : Nat} (k : Word → Answer) (h : n < 0x10000) : onWord n k = k (BitVec.ofNat 16 n) := by
  simp [onWord, h]

theorem onWord_next {n : Nat} {k : Word → Answer} {t : State} (h : onWord n k = .next t) :
    n < 0x10000 ∧ k (BitVec.ofNat 16 n) = .next t := by
  unfold onWord at h
  split at h
  · exact ⟨‹_›, h⟩
  · cases h

theorem advance_fits {s : State} (h : s.pc.toNat ≤ 0xFFE) :
    advance s = .next (s.setPc (BitVec.ofNat 16 (s.pc.toNat + 2))) :=
  goto_fits s (by omega)

/-- `advance` changes PC alone. -/
theorem advance_next {s t : State} (h : advance s = .next t) :
    s.pc.toNat + 2 < 0x10000 ∧ t = s.setPc (BitVec.ofNat 16 (s.pc.toNat + 2)) :=
  goto_next h

theorem skipIf_fits {c : Bool} {s : State} (h : s.pc.toNat ≤ 0xFFE) :
    skipIf c s = .next (s.setPc (BitVec.ofNat 16 (s.pc.toNat + if c then 4 else 2))) :=
  goto_fits s (by split <;> omega)

/-- `skipIf` changes PC alone. -/
theorem skipIf_next {c : Bool} {s t : State} (h : skipIf c s = .next t) :
    s.pc.toNat + (if c then 4 else 2) < 0x10000 ∧
      t = s.setPc (BitVec.ofNat 16 (s.pc.toNat + if c then 4 else 2)) :=
  goto_next h

/-- `raise` always answers a next state: the fault registers and the outputs are written. -/
theorem raise_next {cause : FaultCause} {w a : Word} {s t : State} (h : raise cause w a s = .next t) :
    t = (s.setFault cause s.pc w a).setOutput (some ⟨.fault, false⟩) := by
  cases h; rfl

theorem onNext_next {f : State → State} {r : Answer} {t : State} (h : onNext f r = .next t) :
    ∃ u, r = .next u ∧ t = f u := by
  cases r with
  | next u => exact ⟨u, rfl, by cases h; rfl⟩
  | fault _ => cases h
  | refused _ => cases h

/-! ### The stack -/

theorem State.push_full {s : State} (w : Word) (h : s.sp.val = 16) : s.push w = none := by
  simp [State.push, h]

theorem State.push_some {s t : State} {w : Word} (h : s.push w = some t) :
    ∃ hs : s.sp.val < 16,
      t = (s.setStack (s.stack.set s.sp.val w)).setSp ⟨s.sp.val + 1, by omega⟩ := by
  unfold State.push at h
  split at h
  · exact ⟨‹_›, by cases h; rfl⟩
  · cases h

theorem State.pop_empty {s : State} (h : s.sp.val = 0) : s.pop = none := by
  simp [State.pop, h]

theorem State.pop_some {s t : State} {w : Word} (h : s.pop = some (w, t)) :
    ∃ _ : s.sp.val ≠ 0, w = s.stack[s.sp.val - 1] ∧ t = s.setSp ⟨s.sp.val - 1, by omega⟩ := by
  unfold State.pop at h
  split at h
  · cases h
  · exact ⟨‹_›, by cases h; exact ⟨rfl, rfl⟩⟩

/-! ### Operand checks -/

theorem checkRange_none {addr len : Nat} (h : len = 0 ∨ addr + len ≤ 0x1000) : checkRange addr len = none := by
  unfold checkRange; split
  · omega
  · rfl

theorem checkRange_some {addr len : Nat} (h : len > 0) (h' : addr + len > 0x1000) :
    checkRange addr len = some (max addr 0x1000) := by
  unfold checkRange; split
  · rfl
  · omega

theorem withRange_ok {len : Nat} {w : Word} {s : State} {k : Answer}
    (h : len = 0 ∨ s.i.toNat + len ≤ 0x1000) : withRange len w s k = k := by
  simp [withRange, checkRange_none h]

/-- `withRange` either goes on, the whole range being in memory, or takes the fault. -/
theorem withRange_cases (len : Nat) (w : Word) (s : State) (k : Answer) :
    ((len = 0 ∨ s.i.toNat + len ≤ 0x1000) ∧ withRange len w s k = k) ∨
    ((len > 0 ∧ s.i.toNat + len > 0x1000) ∧
      withRange len w s k = raise .outOfBoundsAccess w (BitVec.ofNat 16 (max s.i.toNat 0x1000)) s) := by
  by_cases h : len = 0 ∨ s.i.toNat + len ≤ 0x1000
  · exact .inl ⟨h, withRange_ok h⟩
  · have h' : len > 0 ∧ s.i.toNat + len > 0x1000 := by omega
    exact .inr ⟨h', by simp [withRange, checkRange_some h'.1 h'.2]⟩

theorem withIndex_ok {x : Reg} {w : Word} {s : State} {k : Fin 16 → Answer} (h : (s.getV x).toNat < 16) :
    withIndex x w s k = k ⟨(s.getV x).toNat, h⟩ := by
  simp [withIndex, h]

/-- `withIndex` either goes on with the index, or takes the fault. -/
theorem withIndex_cases (x : Reg) (w : Word) (s : State) (k : Fin 16 → Answer) :
    (∃ h : (s.getV x).toNat < 16, withIndex x w s k = k ⟨(s.getV x).toNat, h⟩) ∨
    (¬ (s.getV x).toNat < 16 ∧
      withIndex x w s k = raise .outOfBoundsAccess w ((s.getV x).zeroExtend 16) s) := by
  by_cases h : (s.getV x).toNat < 16
  · exact .inl ⟨h, withIndex_ok h⟩
  · exact .inr ⟨h, by simp [withIndex, h]⟩

/-! ### The fetch -/

theorem State.fetch_ok {s : State} (h : s.pc.toNat ≤ 0xFFE) :
    s.fetch = .ok (wordOfBytes (s.readByte s.pc.toNat) (s.readByte (s.pc.toNat + 1))) := by
  unfold State.fetch
  rw [if_neg (by omega), if_neg (by omega)]

/-- The fetch fails exactly above 0xFFE, with the lowest out-of-range byte address. -/
theorem State.fetch_error {s : State} (h : 0xFFE < s.pc.toNat) : s.fetch = .error (max s.pc.toNat 0x1000) := by
  unfold State.fetch
  split
  · rw [Nat.max_eq_left (by omega)]
  · rw [if_pos (by omega), Nat.max_eq_right (by omega)]; congr 1; omega

/-! ### Stores -/

theorem State.readByte_storeBytes_outside (s : State) (a b : Nat) (vs : List Byte)
    (h : b < a ∨ a + vs.length ≤ b) : (s.storeBytes a vs).readByte b = s.readByte b :=
  Memory.read_writeBytes_outside _ _ _ _ h

theorem State.readByte_storeBytes_inside (s : State) (a k : Nat) (vs : List Byte) (h : k < vs.length) :
    (s.storeBytes a vs).readByte (a + k) = vs[k] :=
  Memory.read_writeBytes_inside _ _ _ _ h

/-! ### Flags -/

/-- The result stands in its register, also when that is VF (R120). -/
@[simp] theorem State.getV_setFlagged_self (s : State) (x : Reg) (f : Bool) (b : Byte) :
    (s.setFlagged x f b).getV x = b := by
  simp [State.setFlagged]

theorem State.getV_setFlagged_vf (s : State) {x : Reg} (f : Bool) (b : Byte) (h : x ≠ 15) :
    (s.setFlagged x f b).getV 15 = flagByte f := by
  simp [State.setFlagged, State.getV_setV, Ne.symm h]

theorem State.getV_setFlagged_other (s : State) {x k : Reg} (f : Bool) (b : Byte) (h : k ≠ x) (h' : k ≠ 15) :
    (s.setFlagged x f b).getV k = s.getV k := by
  simp [State.setFlagged, State.getV_setV, h, h']

end Sys2Proof.Machine
end

