-- ==== Sys2Proof/Laws/Display.lean ====
section
/-! SUPPORT. The drawing loop in closed form: on pixels that are pairwise distinct it inverts exactly those listed, collides
iff one of them was set, and changes something iff the list is not empty; and a sprite's pixels are pairwise distinct
(R163). -/

namespace Sys2Proof.Machine

/-- One pixel of a frame buffer. -/
def framePixel (fb : Vector (Vector Bool 64) 32) (p : Col × Row) : Bool := fb[p.2.val][p.1.val]

theorem drawPixel_framePixel (d : Drawing) (p q : Col × Row) :
    framePixel (drawPixel d p).fb q = if q = p then !framePixel d.fb p else framePixel d.fb q := by
  obtain ⟨px, py⟩ := p
  obtain ⟨qx, qy⟩ := q
  simp only [framePixel, drawPixel, Prod.mk.injEq]
  by_cases hy : qy = py
  · subst hy
    by_cases hx : qx = px
    · subst hx; simp
    · have : px.val ≠ qx.val := fun e => hx (Fin.ext e.symm)
      simp [hx, Vector.getElem_set_ne, this]
  · have : py.val ≠ qy.val := fun e => hy (Fin.ext e.symm)
    simp [hy, Vector.getElem_set_ne, this]

/-- Distinct pixels: each listed one is inverted, no other changes. -/
theorem drawPixels_framePixel (d : Drawing) (ps : List (Col × Row)) (h : ps.Nodup) (q : Col × Row) :
    framePixel (drawPixels d ps).fb q = if q ∈ ps then !framePixel d.fb q else framePixel d.fb q := by
  induction ps generalizing d with
  | nil => simp [drawPixels]
  | cons p ps ih =>
    obtain ⟨hp, hps⟩ := List.nodup_cons.1 h
    rw [drawPixels, ih _ hps, drawPixel_framePixel]
    by_cases hq : q = p
    · subst hq; simp [hp]
    · simp [hq]

/-- Distinct pixels: a collision is a listed pixel that was set. -/
theorem drawPixels_collision (d : Drawing) (ps : List (Col × Row)) (h : ps.Nodup) :
    (drawPixels d ps).collision = (d.collision || ps.any (framePixel d.fb)) := by
  induction ps generalizing d with
  | nil => simp [drawPixels]
  | cons p ps ih =>
    obtain ⟨hp, hps⟩ := List.nodup_cons.1 h
    have hc : ps.any (framePixel (drawPixel d p).fb) = ps.any (framePixel d.fb) := by
      apply Bool.eq_iff_iff.2
      simp only [List.any_eq_true]
      refine exists_congr fun q => and_congr_right fun hq => ?_
      have : q ≠ p := fun e => hp (e ▸ hq)
      rw [drawPixel_framePixel, if_neg this]
    rw [drawPixels, ih _ hps, hc]
    simp [drawPixel, framePixel, Bool.or_assoc]

theorem drawPixels_changed (d : Drawing) (ps : List (Col × Row)) :
    (drawPixels d ps).changed = (d.changed || !ps.isEmpty) := by
  induction ps generalizing d with
  | nil => simp [drawPixels]
  | cons p ps ih => rw [drawPixels, ih]; simp [drawPixel]

/-- The pixels of a sprite are those of its 1 bits (R160). -/
theorem mem_spritePixels (x0 y0 : Byte) (r : Nat) (rows : List Byte) (p : Col × Row) :
    p ∈ spritePixels x0 y0 r rows ↔
      ∃ k, ∃ h : k < rows.length, ∃ c, c < 8 ∧ rows[k].getLsbD (7 - c) = true ∧
        p = (spriteCol x0 c, spriteRow y0 (r + k)) := by
  induction rows generalizing r with
  | nil => simp [spritePixels]
  | cons bits rows ih =>
    rw [spritePixels, List.mem_append, ih]
    constructor
    · rintro (h | ⟨k, hk, c, hc, hb, hp⟩)
      · simp only [rowCols, List.map_map, List.mem_map, List.mem_filter, List.mem_range] at h
        obtain ⟨c, ⟨hc, hb⟩, rfl⟩ := h
        exact ⟨0, by simp, c, hc, hb, rfl⟩
      · exact ⟨k + 1, by simpa using hk, c, hc, hb, by rw [hp]; congr 2; omega⟩
    · rintro ⟨k, hk, c, hc, hb, rfl⟩
      cases k with
      | zero =>
        left
        simp only [rowCols, List.map_map, List.mem_map, List.mem_filter, List.mem_range]
        exact ⟨c, ⟨hc, hb⟩, rfl⟩
      | succ k => exact .inr ⟨k, by simpa using hk, c, hc, hb, by congr 2; omega⟩

theorem spriteCol_inj (x0 : Byte) {c c' : Nat} (h : c < 8) (h' : c' < 8)
    (e : spriteCol x0 c = spriteCol x0 c') : c = c' := by
  have := congrArg Fin.val e
  simp only [spriteCol, Fin.val_ofNat] at this
  omega

theorem spriteRow_inj (y0 : Byte) {r r' : Nat} (h : r < 32) (h' : r' < 32)
    (e : spriteRow y0 r = spriteRow y0 r') : r = r' := by
  have := congrArg Fin.val e
  simp only [spriteRow, Fin.val_ofNat] at this
  omega

/-- No pixel of a sprite of at most 32 rows is listed twice (R163). -/
theorem nodup_spritePixels (x0 y0 : Byte) (r : Nat) (rows : List Byte) (h : r + rows.length ≤ 32) :
    (spritePixels x0 y0 r rows).Nodup := by
  induction rows generalizing r with
  | nil => simp [spritePixels]
  | cons bits rows ih =>
    simp only [List.length_cons] at h
    rw [spritePixels, List.nodup_append]
    refine ⟨?_, ih _ (by omega), ?_⟩
    · refine List.Nodup.map (fun a b e => (Prod.mk.inj e).1) ?_
      refine List.Nodup.map_on ?_ (List.nodup_range.filter _)
      intro a ha b hb e
      simp only [List.mem_filter, List.mem_range] at ha hb
      exact spriteCol_inj x0 ha.1 hb.1 e
    · rintro p hp q hq rfl
      simp only [List.mem_map] at hp
      obtain ⟨c, _, rfl⟩ := hp
      obtain ⟨k, hk, c', _, _, e⟩ := (mem_spritePixels _ _ _ _ _).1 hq
      have := spriteRow_inj y0 (by omega) (by omega) (Prod.mk.inj e).2
      omega

end Sys2Proof.Machine
end

