-- ==== Sys2Proof/Laws/Encoding.lean ====
section
/-! SUPPORT. Words as numbers: what the three encoders give and what the fields read. -/

namespace Sys2Proof

/-- `{x, y}` as a number. -/
theorem toNat_concat {n m : Nat} (x : BitVec n) (y : BitVec m) : (x ++ y).toNat = x.toNat * 2 ^ m + y.toNat := by
  rw [BitVec.toNat_append, ← Nat.shiftLeft_add_eq_or_of_lt y.isLt, Nat.shiftLeft_eq]

@[simp] theorem toNat_regBits (x : Fin 16) : (regBits x).toNat = x.val := rfl

theorem toNat_encodeA (op : BitVec 4) (nnn : Addr12) : (encodeA op nnn).toNat = op.toNat * 0x1000 + nnn.toNat :=
  toNat_concat op nnn

theorem toNat_encodeRI (op : BitVec 4) (x : Reg) (nn : Byte) :
    (encodeRI op x nn).toNat = op.toNat * 0x1000 + x.val * 0x100 + nn.toNat := by
  rw [encodeRI, toNat_concat, toNat_concat, toNat_regBits]; omega

theorem toNat_encodeRR (op : BitVec 4) (x y : Reg) (n : BitVec 4) :
    (encodeRR op x y n).toNat = op.toNat * 0x1000 + x.val * 0x100 + y.val * 0x10 + n.toNat := by
  rw [encodeRR, toNat_concat, toNat_concat, toNat_concat, toNat_regBits, toNat_regBits]; omega

theorem fieldOp_eq (w : Word) : fieldOp w = w.toNat / 0x1000 := by
  have := w.isLt
  simp only [fieldOp, BitVec.extractLsb'_toNat, Nat.shiftRight_eq_div_pow]; omega

theorem fieldX_val (w : Word) : (fieldX w).val = w.toNat / 0x100 % 0x10 := by
  show (w.extractLsb' 8 4).toNat = _
  simp only [BitVec.extractLsb'_toNat, Nat.shiftRight_eq_div_pow]

theorem fieldY_val (w : Word) : (fieldY w).val = w.toNat / 0x10 % 0x10 := by
  show (w.extractLsb' 4 4).toNat = _
  simp only [BitVec.extractLsb'_toNat, Nat.shiftRight_eq_div_pow]

theorem fieldN_val (w : Word) : (fieldN w).val = w.toNat % 0x10 := by
  show (w.extractLsb' 0 4).toNat = _
  simp only [BitVec.extractLsb'_toNat, Nat.shiftRight_eq_div_pow]; omega

theorem fieldNN_toNat (w : Word) : (fieldNN w).toNat = w.toNat % 0x100 := by
  simp only [fieldNN, BitVec.extractLsb'_toNat, Nat.shiftRight_zero]

theorem fieldNNN_toNat (w : Word) : (fieldNNN w).toNat = w.toNat % 0x1000 := by
  simp only [fieldNNN, BitVec.extractLsb'_toNat, Nat.shiftRight_zero]

theorem toNat_wordOfBytes (hi lo : Byte) : (wordOfBytes hi lo).toNat = hi.toNat * 0x100 + lo.toNat :=
  toNat_concat hi lo

/-- The two bytes of a word give the word back. -/
theorem wordOfBytes_high_low (w : Word) : wordOfBytes (highByte w) (lowByte w) = w := by
  apply BitVec.eq_of_toNat_eq
  have := w.isLt
  rw [toNat_wordOfBytes]
  simp only [highByte, lowByte, BitVec.extractLsb'_toNat, Nat.shiftRight_eq_div_pow]; omega

/-- The host's numbering of a word is the decoder's. -/
theorem decodeTableWord_eq (nbits w : Nat) :
    decodeTableWord nbits w =
      match decodeWord (tableWord nbits w) with
      | .ok i => some i
      | .error _ => none := by
  simp only [decodeTableWord, decodeBytes, wordOfBytes_high_low]
  cases decodeWord (tableWord nbits w) <;> rfl

end Sys2Proof
end

