-- ==== Sys2Proof/Laws/Frame.lean ====
section
/-! SUPPORT. Frames: what each update leaves unchanged, and how frames compose. -/

namespace Sys2Proof.Machine

theorem OnlyChanges.refl (s : State) (parts : List Part) : OnlyChanges parts s s := by
  intro p _
  cases p <;> simp only [Part.same, implies_true, and_self]

theorem Part.same_trans {p : Part} {s t u : State} (h : p.same s t) (h' : p.same t u) : p.same s u := by
  cases p <;> simp only [Part.same] at h h' ⊢ <;> simp only [h', h, implies_true, and_self]

/-- Two changes in a row change what either changes. -/
theorem OnlyChanges.trans {ps qs : List Part} {s t u : State} (h : OnlyChanges ps s t) (h' : OnlyChanges qs t u) :
    OnlyChanges (ps ++ qs) s u := fun p hp =>
  Part.same_trans (h p fun e => hp (List.mem_append_left _ e)) (h' p fun e => hp (List.mem_append_right _ e))

theorem OnlyChanges.mono {ps qs : List Part} {s t : State} (h : OnlyChanges ps s t) (hs : ps ⊆ qs) :
    OnlyChanges qs s t := fun p hp => h p fun e => hp (hs e)

theorem onlyChanges_setV (s : State) (x : Reg) (b : Byte) : OnlyChanges [.v] s (s.setV x b) := by
  intro p hp
  cases p <;> first | exact absurd (List.mem_singleton.2 rfl) hp | simp [Part.same]

theorem onlyChanges_setAllV (s : State) (v : Vector Byte 16) : OnlyChanges [.v] s (s.setAllV v) := by
  intro p hp
  cases p <;> first | exact absurd (List.mem_singleton.2 rfl) hp | simp [Part.same]

theorem onlyChanges_setI (s : State) (w : Word) : OnlyChanges [.i] s (s.setI w) := by
  intro p hp
  cases p <;> first | exact absurd (List.mem_singleton.2 rfl) hp | simp [Part.same]

theorem onlyChanges_setPc (s : State) (w : Word) : OnlyChanges [.pc] s (s.setPc w) := by
  intro p hp
  cases p <;> first | exact absurd (List.mem_singleton.2 rfl) hp | simp [Part.same]

theorem onlyChanges_setStack (s : State) (k : Vector Word 16) : OnlyChanges [.stack] s (s.setStack k) := by
  intro p hp
  cases p <;> first | exact absurd (List.mem_singleton.2 rfl) hp | simp [Part.same]

theorem onlyChanges_setSp (s : State) (n : Fin 17) : OnlyChanges [.sp] s (s.setSp n) := by
  intro p hp
  cases p <;> first | exact absurd (List.mem_singleton.2 rfl) hp | simp [Part.same]

theorem onlyChanges_setDt (s : State) (b : Byte) : OnlyChanges [.dt] s (s.setDt b) := by
  intro p hp
  cases p <;> first | exact absurd (List.mem_singleton.2 rfl) hp | simp [Part.same]

theorem onlyChanges_setSt (s : State) (b : Byte) : OnlyChanges [.st] s (s.setSt b) := by
  intro p hp
  cases p <;> first | exact absurd (List.mem_singleton.2 rfl) hp | simp [Part.same]

theorem onlyChanges_setFb (s : State) (f : Vector (Vector Bool 64) 32) : OnlyChanges [.fb] s (s.setFb f) := by
  intro p hp
  cases p <;> first | exact absurd (List.mem_singleton.2 rfl) hp | simp [Part.same]

theorem onlyChanges_setDirty (s : State) (d : Bool) : OnlyChanges [.dirty] s (s.setDirty d) := by
  intro p hp
  cases p <;> first | exact absurd (List.mem_singleton.2 rfl) hp | simp [Part.same]

theorem onlyChanges_setKeys (s : State) (k : Vector Bool 16) : OnlyChanges [.key] s (s.setKeys k) := by
  intro p hp
  cases p <;> first | exact absurd (List.mem_singleton.2 rfl) hp | simp [Part.same]

theorem onlyChanges_setMem (s : State) (m : Memory) : OnlyChanges [.mem] s (s.setMem m) := by
  intro p hp
  cases p <;> first | exact absurd (List.mem_singleton.2 rfl) hp | simp [Part.same]

theorem onlyChanges_storeBytes (s : State) (a : Nat) (vs : List Byte) : OnlyChanges [.mem] s (s.storeBytes a vs) :=
  onlyChanges_setMem s _

theorem onlyChanges_setFault (s : State) (c : FaultCause) (p w a : Word) :
    OnlyChanges [.fault] s (s.setFault c p w a) := by
  intro p hp
  cases p <;> first | exact absurd (List.mem_singleton.2 rfl) hp | simp [Part.same]

theorem onlyChanges_setOutput (s : State) (o : Option StepOutput) : OnlyChanges [.output] s (s.setOutput o) := by
  intro p hp
  cases p <;> first | exact absurd (List.mem_singleton.2 rfl) hp | simp [Part.same]

theorem onlyChanges_setLoadResult (s : State) (r : Option LoadResult) :
    OnlyChanges [.load] s (s.setLoadResult r) := by
  intro p hp
  cases p <;> first | exact absurd (List.mem_singleton.2 rfl) hp | simp [Part.same]

theorem onlyChanges_setSchedule (s : State) (l : List Operation) : OnlyChanges [.schedule] s (s.setSchedule l) := by
  intro p hp
  cases p <;> first | exact absurd (List.mem_singleton.2 rfl) hp | simp [Part.same]

theorem onlyChanges_countDraw (s : State) : OnlyChanges [.rnd] s s.countDraw := by
  intro p hp
  cases p <;> first | exact absurd (List.mem_singleton.2 rfl) hp | simp [Part.same]

theorem onlyChanges_setFlagged (s : State) (x : Reg) (f : Bool) (b : Byte) :
    OnlyChanges [.v] s (s.setFlagged x f b) :=
  ((onlyChanges_setV s 15 (flagByte f)).trans (onlyChanges_setV _ x b)).mono (by simp)

theorem onlyChanges_finishDrawing (s : State) (d : Drawing) :
    OnlyChanges [.fb, .v, .dirty] s (s.finishDrawing d) :=
  ((onlyChanges_setFb s d.fb).trans (onlyChanges_setV _ 15 (flagByte d.collision))).trans
    (onlyChanges_setDirty _ (s.dirty || d.changed))

/-- The end of a `Step` changes the outputs and DIRTY alone. -/
theorem onlyChanges_endStep (s : State) : OnlyChanges [.output, .dirty] s s.endStep := by
  unfold State.endStep
  split
  · exact (onlyChanges_setOutput s _).trans (onlyChanges_setDirty _ false)
  · exact OnlyChanges.refl s _

/-- A fault taken changes the fault registers and the outputs alone. -/
theorem onlyChanges_raise {c : FaultCause} {w a : Word} {s t : State} (h : raise c w a s = .next t) :
    OnlyChanges [.fault, .output] s t := by
  rw [raise_next h]
  exact (onlyChanges_setFault s c s.pc w a).trans (onlyChanges_setOutput _ _)

/-- The default advance changes PC alone. -/
theorem onlyChanges_advance {s t : State} (h : advance s = .next t) : OnlyChanges [.pc] s t := by
  rw [(advance_next h).2]; exact onlyChanges_setPc s _

theorem onlyChanges_goto {n : Nat} {s t : State} (h : goto n s = .next t) : OnlyChanges [.pc] s t := by
  rw [(goto_next h).2]; exact onlyChanges_setPc s _

theorem onlyChanges_skipIf {c : Bool} {s t : State} (h : skipIf c s = .next t) : OnlyChanges [.pc] s t :=
  onlyChanges_goto h

end Sys2Proof.Machine
end

