-- ==== Sys2Proof/Laws/Exec.lean ====
section
/-! SUPPORT. What each instruction can do, said once: if `exec` answers a next state, it is this one. The ALU, load and
timer instructions end in `advance` of an update, the skips in `skipIf`, so `advance_next` and `skipIf_next` say it for
them; here stand the instructions with more than one end. -/

namespace Sys2Proof.Machine

theorem execRet_next {s t : State} (h : exec .ret s = .next t) :
    (s.sp.val = 0 ∧ raise .stackUnderflow (encode .ret) 0 s = .next t) ∨
    (∃ _ : s.sp.val ≠ 0, t = (s.setSp ⟨s.sp.val - 1, by omega⟩).setPc s.stack[s.sp.val - 1]) := by
  change execRet s = _ at h
  by_cases h0 : s.sp.val = 0
  · rw [execRet, State.pop_empty h0] at h
    exact .inl ⟨h0, h⟩
  · have hp : s.pop = some (s.stack[s.sp.val - 1], s.setSp ⟨s.sp.val - 1, by omega⟩) := by simp [State.pop, h0]
    rw [execRet, hp] at h
    exact .inr ⟨h0, by cases h; rfl⟩

theorem execCall_next {nnn : Addr12} {s t : State} (h : exec (.call nnn) s = .next t) :
    s.pc.toNat + 2 < 0x10000 ∧
    ((s.sp.val = 16 ∧ raise .stackOverflow (encode (.call nnn)) 0 s = .next t) ∨
     (∃ _ : s.sp.val < 16, t =
       ((s.setStack (s.stack.set s.sp.val (BitVec.ofNat 16 (s.pc.toNat + 2)))).setSp ⟨s.sp.val + 1, by omega⟩).setPc
         (BitVec.ofNat 16 nnn.toNat))) := by
  change execCall nnn s = _ at h
  obtain ⟨hpc, h⟩ := onWord_next h
  refine ⟨hpc, ?_⟩
  by_cases h16 : s.sp.val = 16
  · rw [State.push_full _ h16] at h
    exact .inl ⟨h16, h⟩
  · have hs : s.sp.val < 16 := by omega
    have hp : s.push (BitVec.ofNat 16 (s.pc.toNat + 2)) =
        some ((s.setStack (s.stack.set s.sp.val (BitVec.ofNat 16 (s.pc.toNat + 2)))).setSp ⟨s.sp.val + 1, by omega⟩) := by
      simp [State.push, hs]
    rw [hp] at h
    exact .inr ⟨hs, (goto_next h).2⟩

theorem execWaitKey_next {x : Reg} {s t : State} (h : exec (.waitKey x) s = .next t) :
    (s.leastPressed = none ∧ t = s.setOutput (some ⟨.stalled, false⟩)) ∨
    (∃ k, s.leastPressed = some k ∧ advance (s.setV x (keyByte k)) = .next t) := by
  change execWaitKey x s = _ at h
  unfold execWaitKey at h
  split at h
  · exact .inl ⟨‹_›, by cases h; rfl⟩
  · exact .inr ⟨_, ‹_›, h⟩

theorem execFontCharAddress_next {x : Reg} {s t : State} (h : exec (.fontCharAddress x) s = .next t) :
    ((s.getV x).toNat < 16 ∧
      advance (s.setI (BitVec.ofNat 16 (Config.fontBase + 5 * (s.getV x).toNat))) = .next t) ∨
    (¬ (s.getV x).toNat < 16 ∧
      raise .outOfBoundsAccess (encode (.fontCharAddress x)) ((s.getV x).zeroExtend 16) s = .next t) := by
  change execFontCharAddress x s = _ at h
  unfold execFontCharAddress at h
  rcases withIndex_cases x (encode (.fontCharAddress x)) s
    (fun d => advance (s.setI (BitVec.ofNat 16 (Config.fontBase + 5 * d.val)))) with ⟨h', e⟩ | ⟨h', e⟩
  · exact .inl ⟨h', by rwa [e] at h⟩
  · exact .inr ⟨h', by rwa [e] at h⟩

theorem execSkipKeyPressed_next {x : Reg} {s t : State} (h : exec (.skipKeyPressed x) s = .next t) :
    (∃ h' : (s.getV x).toNat < 16, skipIf (s.pressed ⟨(s.getV x).toNat, h'⟩) s = .next t) ∨
    (¬ (s.getV x).toNat < 16 ∧
      raise .outOfBoundsAccess (encode (.skipKeyPressed x)) ((s.getV x).zeroExtend 16) s = .next t) := by
  change execSkipKeyPressed x s = _ at h
  unfold execSkipKeyPressed at h
  rcases withIndex_cases x (encode (.skipKeyPressed x)) s (fun k => skipIf (s.pressed k) s) with ⟨h', e⟩ | ⟨h', e⟩
  · exact .inl ⟨h', by rwa [e] at h⟩
  · exact .inr ⟨h', by rwa [e] at h⟩

theorem execSkipKeyNotPressed_next {x : Reg} {s t : State} (h : exec (.skipKeyNotPressed x) s = .next t) :
    (∃ h' : (s.getV x).toNat < 16, skipIf (!s.pressed ⟨(s.getV x).toNat, h'⟩) s = .next t) ∨
    (¬ (s.getV x).toNat < 16 ∧
      raise .outOfBoundsAccess (encode (.skipKeyNotPressed x)) ((s.getV x).zeroExtend 16) s = .next t) := by
  change execSkipKeyNotPressed x s = _ at h
  unfold execSkipKeyNotPressed at h
  rcases withIndex_cases x (encode (.skipKeyNotPressed x)) s (fun k => skipIf (!s.pressed k) s) with
    ⟨h', e⟩ | ⟨h', e⟩
  · exact .inl ⟨h', by rwa [e] at h⟩
  · exact .inr ⟨h', by rwa [e] at h⟩

/-- An instruction on the range of `len` bytes at `I` that goes on with `k`: the range is in memory and `k` answers, or the
fault is taken. -/
theorem withRange_next {len : Nat} {w : Word} {s t : State} {k : Answer} (h : withRange len w s k = .next t) :
    (s.RangeOk len ∧ k = .next t) ∨
    (¬ s.RangeOk len ∧
      raise .outOfBoundsAccess w (BitVec.ofNat 16 (max s.i.toNat 0x1000)) s = .next t) := by
  rcases withRange_cases len w s k with ⟨h', e⟩ | ⟨h', e⟩
  · exact .inl ⟨h', by rwa [e] at h⟩
  · exact .inr ⟨fun hr => by rcases hr with hr | hr <;> omega, by rwa [e] at h⟩

theorem execBcd_next {x : Reg} {s t : State} (h : exec (.bcd x) s = .next t) :
    (s.RangeOk 3 ∧ advance (s.storeBytes s.i.toNat (bcdDigits (s.getV x))) = .next t) ∨
    (¬ s.RangeOk 3 ∧
      raise .outOfBoundsAccess (encode (.bcd x)) (BitVec.ofNat 16 (max s.i.toNat 0x1000)) s = .next t) :=
  withRange_next h

theorem execRegisterDump_next {x : Reg} {s t : State} (h : exec (.registerDump x) s = .next t) :
    (s.RangeOk (x.val + 1) ∧ advance (s.storeBytes s.i.toNat (s.v.toList.take (x.val + 1))) = .next t) ∨
    (¬ s.RangeOk (x.val + 1) ∧
      raise .outOfBoundsAccess (encode (.registerDump x)) (BitVec.ofNat 16 (max s.i.toNat 0x1000)) s = .next t) :=
  withRange_next h

theorem execRegisterLoad_next {x : Reg} {s t : State} (h : exec (.registerLoad x) s = .next t) :
    (s.RangeOk (x.val + 1) ∧
      advance (s.setAllV (Vector.ofFn fun k =>
        if k.val ≤ x.val then s.readByte (s.i.toNat + k.val) else s.getV k)) = .next t) ∨
    (¬ s.RangeOk (x.val + 1) ∧
      raise .outOfBoundsAccess (encode (.registerLoad x)) (BitVec.ofNat 16 (max s.i.toNat 0x1000)) s = .next t) :=
  withRange_next h

theorem execDrawSprite_next {x y : Reg} {n : Fin 16} {s t : State} (h : exec (.drawSprite x y n) s = .next t) :
    (s.RangeOk n.val ∧
      advance (s.finishDrawing (drawPixels ⟨s.fb, false, false⟩
        (spritePixels (s.getV x) (s.getV y) 0 (s.readBytes s.i.toNat n.val)))) = .next t) ∨
    (¬ s.RangeOk n.val ∧
      raise .outOfBoundsAccess (encode (.drawSprite x y n)) (BitVec.ofNat 16 (max s.i.toNat 0x1000)) s = .next t) :=
  withRange_next h

/-- When `Step` is the next operation, the step is one Execution Cycle. -/
theorem step_of_stepDue {s : State} (h : s.StepDue) : step s = executionCycle (s.setSchedule s.schedule.tail) := by
  unfold step nextOperation
  rcases e : s.schedule with _ | ⟨op, ops⟩
  · simp only [List.tail_nil]
    rw [show s.setSchedule [] = s by rw [← e]; rfl]
  · simp only [State.StepDue, e, List.headD_cons] at h
    subst h; rfl

/-- Any other scheduled operation is performed, and taken off the schedule. -/
theorem step_of_schedule {s : State} {op : Operation} {ops : List Operation} (h : s.schedule = op :: ops) :
    step s = perform op (s.setSchedule ops) := by
  simp only [step, nextOperation, h]

/-- What an Execution Cycle can do: nothing when halted, a fetch fault, an unknown opcode, or one instruction and the
redraw report. -/
theorem executionCycle_next {s t : State} (h : executionCycle s = .next t) :
    (s.faultCause ≠ .none ∧ t = s.setOutput (some ⟨.fault, false⟩)) ∨
    (s.faultCause = .none ∧
      ((0xFFE < s.pc.toNat ∧
          raise .outOfBoundsAccess 0 (BitVec.ofNat 16 (max s.pc.toNat 0x1000)) s = .next t) ∨
       (s.pc.toNat ≤ 0xFFE ∧ ∃ w, s.fetch = .ok w ∧
          ((∃ e, decodeWord w = .error e ∧ raise .unknownOpcode w 0 s = .next t) ∨
           (∃ i u, decodeWord w = .ok i ∧ exec i (s.setOutput none) = .next u ∧ t = u.endStep))))) := by
  unfold executionCycle at h
  split at h
  · exact .inl ⟨by simpa [State.halted] using ‹s.halted = true›, by cases h; rfl⟩
  · refine .inr ⟨by simpa [State.halted] using ‹¬ s.halted = true›, ?_⟩
    by_cases hpc : s.pc.toNat ≤ 0xFFE
    · rw [State.fetch_ok hpc] at h ⊢
      simp only at h
      refine .inr ⟨hpc, _, rfl, ?_⟩
      split at h
      · exact .inl ⟨_, ‹_›, h⟩
      · obtain ⟨u, hu, rfl⟩ := onNext_next h
        exact .inr ⟨_, u, ‹_›, hu, rfl⟩
    · rw [State.fetch_error (by omega)] at h
      exact .inl ⟨by omega, h⟩

end Sys2Proof.Machine
end

