-- ==== Sys2Proof/Laws/PerInstr.lean ====
section
/-! SUPPORT. Per instruction, as syntax: it is well formed, and its encoded word selects its row of the opcode table
(R65). -/

namespace Sys2Proof.Laws.EncodedRow

/-- The instruction is well formed and its word matches its row: `word & mask = match`. -/
def Statement (i : Instr) : Prop := i.wellFormed = true ∧ encode i &&& i.row.mask = i.row.mtch

/-- Every row of the opcode table is well formed and no word selects two of them (R65). -/
theorem opcodeTable_wellFormed : tableWellFormed opcodeTable = true := by decide

/-- Whether an instruction is well formed is a matter of its row. -/
theorem wellFormed_of_row (j : Instr) {i : Instr} (hj : j.wellFormed = true) (h : j.row = i.row) :
    i.wellFormed = true := by
  rwa [Instr.wellFormed, ← h]

theorem encodeA_masked (op : BitVec 4) (nnn : Addr12) : encodeA op nnn &&& 0xF000 = op ++ 0#12 := by
  show (op ++ nnn) &&& ((BitVec.allOnes 4) ++ 0#12) = _
  rw [BitVec.and_append, BitVec.and_allOnes, BitVec.and_zero]

theorem encodeRI_masked (op : BitVec 4) (x : Reg) (nn : Byte) : encodeRI op x nn &&& 0xF000 = op ++ 0#4 ++ 0#8 := by
  show (op ++ regBits x ++ nn) &&& ((BitVec.allOnes 4) ++ 0#4 ++ 0#8) = _
  rw [BitVec.and_append, BitVec.and_append, BitVec.and_allOnes, BitVec.and_zero, BitVec.and_zero]

theorem encodeR_masked (op : BitVec 4) (x : Reg) (nn : Byte) : encodeRI op x nn &&& 0xF0FF = op ++ 0#4 ++ nn := by
  show (op ++ regBits x ++ nn) &&& ((BitVec.allOnes 4) ++ 0#4 ++ (BitVec.allOnes 8)) = _
  rw [BitVec.and_append, BitVec.and_append, BitVec.and_allOnes, BitVec.and_zero, BitVec.and_allOnes]

theorem encodeRR_masked (op : BitVec 4) (x y : Reg) (n : BitVec 4) :
    encodeRR op x y n &&& 0xF00F = ((op ++ 0#4 ++ 0#4 ++ n : BitVec (4 + 4 + 4 + 4)) : Word) := by
  show (op ++ regBits x ++ regBits y ++ n : BitVec (4 + 4 + 4 + 4)) &&&
    ((BitVec.allOnes 4) ++ 0#4 ++ 0#4 ++ (BitVec.allOnes 4)) = _
  simp only [BitVec.and_append, BitVec.and_allOnes, BitVec.and_zero]

theorem encodeRRN_masked (op : BitVec 4) (x y : Reg) (n : BitVec 4) :
    encodeRR op x y n &&& 0xF000 = ((op ++ 0#4 ++ 0#4 ++ 0#4 : BitVec (4 + 4 + 4 + 4)) : Word) := by
  show (op ++ regBits x ++ regBits y ++ n : BitVec (4 + 4 + 4 + 4)) &&&
    ((BitVec.allOnes 4) ++ 0#4 ++ 0#4 ++ 0#4) = _
  simp only [BitVec.and_append, BitVec.and_allOnes, BitVec.and_zero]

theorem clear : Statement (.clear) :=
  ⟨wellFormed_of_row .clear (by decide) rfl, rfl⟩

theorem ret : Statement (.ret) :=
  ⟨wellFormed_of_row .ret (by decide) rfl, rfl⟩

theorem jump (nnn : Addr12) : Statement (.jump nnn) :=
  ⟨wellFormed_of_row (.jump 0) (by decide) rfl, encodeA_masked 0x1 nnn⟩

theorem call (nnn : Addr12) : Statement (.call nnn) :=
  ⟨wellFormed_of_row (.call 0) (by decide) rfl, encodeA_masked 0x2 nnn⟩

theorem skipEqImm (x : Reg) (nn : Byte) : Statement (.skipEqImm x nn) :=
  ⟨wellFormed_of_row (.skipEqImm 0 0) (by decide) rfl, encodeRI_masked 0x3 x nn⟩

theorem skipNeqImm (x : Reg) (nn : Byte) : Statement (.skipNeqImm x nn) :=
  ⟨wellFormed_of_row (.skipNeqImm 0 0) (by decide) rfl, encodeRI_masked 0x4 x nn⟩

theorem skipEqReg (x y : Reg) : Statement (.skipEqReg x y) :=
  ⟨wellFormed_of_row (.skipEqReg 0 0) (by decide) rfl, encodeRR_masked 0x5 x y 0x0⟩

theorem setImm (x : Reg) (nn : Byte) : Statement (.setImm x nn) :=
  ⟨wellFormed_of_row (.setImm 0 0) (by decide) rfl, encodeRI_masked 0x6 x nn⟩

theorem addImm (x : Reg) (nn : Byte) : Statement (.addImm x nn) :=
  ⟨wellFormed_of_row (.addImm 0 0) (by decide) rfl, encodeRI_masked 0x7 x nn⟩

theorem setReg (x y : Reg) : Statement (.setReg x y) :=
  ⟨wellFormed_of_row (.setReg 0 0) (by decide) rfl, encodeRR_masked 0x8 x y 0x0⟩

theorem orReg (x y : Reg) : Statement (.orReg x y) :=
  ⟨wellFormed_of_row (.orReg 0 0) (by decide) rfl, encodeRR_masked 0x8 x y 0x1⟩

theorem andReg (x y : Reg) : Statement (.andReg x y) :=
  ⟨wellFormed_of_row (.andReg 0 0) (by decide) rfl, encodeRR_masked 0x8 x y 0x2⟩

theorem xorReg (x y : Reg) : Statement (.xorReg x y) :=
  ⟨wellFormed_of_row (.xorReg 0 0) (by decide) rfl, encodeRR_masked 0x8 x y 0x3⟩

theorem addReg (x y : Reg) : Statement (.addReg x y) :=
  ⟨wellFormed_of_row (.addReg 0 0) (by decide) rfl, encodeRR_masked 0x8 x y 0x4⟩

theorem subReg (x y : Reg) : Statement (.subReg x y) :=
  ⟨wellFormed_of_row (.subReg 0 0) (by decide) rfl, encodeRR_masked 0x8 x y 0x5⟩

theorem shiftRight (x y : Reg) : Statement (.shiftRight x y) :=
  ⟨wellFormed_of_row (.shiftRight 0 0) (by decide) rfl, encodeRR_masked 0x8 x y 0x6⟩

theorem subReverse (x y : Reg) : Statement (.subReverse x y) :=
  ⟨wellFormed_of_row (.subReverse 0 0) (by decide) rfl, encodeRR_masked 0x8 x y 0x7⟩

theorem shiftLeft (x y : Reg) : Statement (.shiftLeft x y) :=
  ⟨wellFormed_of_row (.shiftLeft 0 0) (by decide) rfl, encodeRR_masked 0x8 x y 0xE⟩

theorem skipNeqReg (x y : Reg) : Statement (.skipNeqReg x y) :=
  ⟨wellFormed_of_row (.skipNeqReg 0 0) (by decide) rfl, encodeRR_masked 0x9 x y 0x0⟩

theorem setIndex (nnn : Addr12) : Statement (.setIndex nnn) :=
  ⟨wellFormed_of_row (.setIndex 0) (by decide) rfl, encodeA_masked 0xA nnn⟩

theorem jumpOffset (nnn : Addr12) : Statement (.jumpOffset nnn) :=
  ⟨wellFormed_of_row (.jumpOffset 0) (by decide) rfl, encodeA_masked 0xB nnn⟩

theorem random (x : Reg) (nn : Byte) : Statement (.random x nn) :=
  ⟨wellFormed_of_row (.random 0 0) (by decide) rfl, encodeRI_masked 0xC x nn⟩

theorem drawSprite (x y : Reg) (n : Fin 16) : Statement (.drawSprite x y n) :=
  ⟨wellFormed_of_row (.drawSprite 0 0 0) (by decide) rfl, encodeRRN_masked 0xD x y (regBits n)⟩

theorem skipKeyPressed (x : Reg) : Statement (.skipKeyPressed x) :=
  ⟨wellFormed_of_row (.skipKeyPressed 0) (by decide) rfl, encodeR_masked 0xE x 0x9E⟩

theorem skipKeyNotPressed (x : Reg) : Statement (.skipKeyNotPressed x) :=
  ⟨wellFormed_of_row (.skipKeyNotPressed 0) (by decide) rfl, encodeR_masked 0xE x 0xA1⟩

theorem getDelay (x : Reg) : Statement (.getDelay x) :=
  ⟨wellFormed_of_row (.getDelay 0) (by decide) rfl, encodeR_masked 0xF x 0x07⟩

theorem waitKey (x : Reg) : Statement (.waitKey x) :=
  ⟨wellFormed_of_row (.waitKey 0) (by decide) rfl, encodeR_masked 0xF x 0x0A⟩

theorem setDelay (x : Reg) : Statement (.setDelay x) :=
  ⟨wellFormed_of_row (.setDelay 0) (by decide) rfl, encodeR_masked 0xF x 0x15⟩

theorem setSound (x : Reg) : Statement (.setSound x) :=
  ⟨wellFormed_of_row (.setSound 0) (by decide) rfl, encodeR_masked 0xF x 0x18⟩

theorem addToIndex (x : Reg) : Statement (.addToIndex x) :=
  ⟨wellFormed_of_row (.addToIndex 0) (by decide) rfl, encodeR_masked 0xF x 0x1E⟩

theorem fontCharAddress (x : Reg) : Statement (.fontCharAddress x) :=
  ⟨wellFormed_of_row (.fontCharAddress 0) (by decide) rfl, encodeR_masked 0xF x 0x29⟩

theorem bcd (x : Reg) : Statement (.bcd x) :=
  ⟨wellFormed_of_row (.bcd 0) (by decide) rfl, encodeR_masked 0xF x 0x33⟩

theorem registerDump (x : Reg) : Statement (.registerDump x) :=
  ⟨wellFormed_of_row (.registerDump 0) (by decide) rfl, encodeR_masked 0xF x 0x55⟩

theorem registerLoad (x : Reg) : Statement (.registerLoad x) :=
  ⟨wellFormed_of_row (.registerLoad 0) (by decide) rfl, encodeR_masked 0xF x 0x65⟩

/-- Every instruction is well formed. -/
theorem all_wellFormed (i : Instr) : i.wellFormed = true := by
  cases i with
  | clear => exact (clear).1
  | ret => exact (ret).1
  | jump a0 => exact (jump a0).1
  | call a0 => exact (call a0).1
  | skipEqImm a0 a1 => exact (skipEqImm a0 a1).1
  | skipNeqImm a0 a1 => exact (skipNeqImm a0 a1).1
  | skipEqReg a0 a1 => exact (skipEqReg a0 a1).1
  | setImm a0 a1 => exact (setImm a0 a1).1
  | addImm a0 a1 => exact (addImm a0 a1).1
  | setReg a0 a1 => exact (setReg a0 a1).1
  | orReg a0 a1 => exact (orReg a0 a1).1
  | andReg a0 a1 => exact (andReg a0 a1).1
  | xorReg a0 a1 => exact (xorReg a0 a1).1
  | addReg a0 a1 => exact (addReg a0 a1).1
  | subReg a0 a1 => exact (subReg a0 a1).1
  | shiftRight a0 a1 => exact (shiftRight a0 a1).1
  | subReverse a0 a1 => exact (subReverse a0 a1).1
  | shiftLeft a0 a1 => exact (shiftLeft a0 a1).1
  | skipNeqReg a0 a1 => exact (skipNeqReg a0 a1).1
  | setIndex a0 => exact (setIndex a0).1
  | jumpOffset a0 => exact (jumpOffset a0).1
  | random a0 a1 => exact (random a0 a1).1
  | drawSprite a0 a1 a2 => exact (drawSprite a0 a1 a2).1
  | skipKeyPressed a0 => exact (skipKeyPressed a0).1
  | skipKeyNotPressed a0 => exact (skipKeyNotPressed a0).1
  | getDelay a0 => exact (getDelay a0).1
  | waitKey a0 => exact (waitKey a0).1
  | setDelay a0 => exact (setDelay a0).1
  | setSound a0 => exact (setSound a0).1
  | addToIndex a0 => exact (addToIndex a0).1
  | fontCharAddress a0 => exact (fontCharAddress a0).1
  | bcd a0 => exact (bcd a0).1
  | registerDump a0 => exact (registerDump a0).1
  | registerLoad a0 => exact (registerLoad a0).1

end Sys2Proof.Laws.EncodedRow
end

