-- ==== Sys2Proof/Tests/Slice0.lean ====
section
/-! SUPPORT. The model's own tests: the well-formedness smoke, every constructor's decoding from a word written out bit by
bit from spec/30_encoding.md section 3, single steps on the vectors of spec/95_test_vectors.md, and for every statement
with hypotheses a witness that meets them. Expected results are the spec's, not the model's. -/

namespace Sys2Proof.Tests

open Sys2Proof.Machine

/-! ### Helpers -/

/-- The state after `Reset` with some registers set. -/
def regs (l : List (Reg × Byte)) : State := l.foldl (fun s p => s.setV p.1 p.2) .reset

/-- A state with some keys pressed. -/
def press (l : List Key) (s : State) : State := l.foldl (fun s k => s.writeKey k true) s

/-- A state with some pixels set. -/
def light (l : List (Col × Row)) (s : State) : State :=
  l.foldl (fun s p => s.setFb (s.fb.set p.2.val (s.fb[p.2.val].set p.1.val true))) s

/-- What a reader sees of the state after one step that runs a word. -/
def ran {α : Type} (w : Nat) (s : State) (f : State → α) : Option α :=
  match step (s.withFetchWord 16 w) with
  | .next t    => some (f t)
  | .fault _   => none
  | .refused _ => none

/-- What a reader sees of the state after one step. -/
def stepped {α : Type} (s : State) (f : State → α) : Option α :=
  match step s with
  | .next t    => some (f t)
  | .fault _   => none
  | .refused _ => none

/-- `F = (cause, pc, word, addr)` of spec/95_test_vectors.md. -/
def faultRegs (t : State) : FaultCause × Word × Word × Word := (t.faultCause, t.faultPc, t.faultWord, t.faultAddr)

/-- The bytes at an address and after it. -/
def bytesAt (a len : Nat) (t : State) : List Byte := t.readBytes a len

/-- The outputs `OK` and redraw 1. -/
def okRedraw : Option StepOutput := some ⟨.ok, true⟩

/-- The outputs `OK` and redraw 0. -/
def okQuiet : Option StepOutput := some ⟨.ok, false⟩

/-- The outputs of a `Step` that faults. -/
def faulted : Option StepOutput := some ⟨.fault, false⟩

/-! ### Well-formedness: an ill-formed term for each check -/

theorem test_opcode_table_well_formed : tableWellFormed opcodeTable = true ∧ opcodeTable.length = 34 := by decide

/-- A match with a bit outside the mask is refused. -/
theorem test_match_outside_mask_refused : (⟨"JUMP", .a, 0xF000, 0x1001⟩ : TableRow).wellFormed = false := by decide

/-- A mask that is not the format's is refused. -/
theorem test_mask_not_of_format_refused : (⟨"SKIP_EQ_REG", .rr, 0xF000, 0x5000⟩ : TableRow).wellFormed = false := by decide

/-- A table in which a word selects two rows is refused: a second row 0x00E0 beside a row for the whole family 0. -/
theorem test_overlapping_rows_refused :
    tableWellFormed [⟨"CLEAR", .z, 0xFFFF, 0x00E0⟩, ⟨"SYS", .a, 0xF000, 0x0000⟩] = false := by decide

/-- 0NNN is no row of the table (spec/90_conflicts.md C1), so an instruction of such a row would be refused. -/
theorem test_row_outside_table_refused : opcodeTable.contains ⟨"SYS", .a, 0xF000, 0x0000⟩ = false := by decide

/-! ### Decoding, words written out from spec/30_encoding.md section 3 -/

theorem test_decode_clear : decodeTableWord 16 0b0000000011100000 = some (.clear) := by decide

theorem test_decode_ret : decodeTableWord 16 0b0000000011101110 = some (.ret) := by decide

theorem test_decode_jump : decodeTableWord 16 0b0001101010111100 = some (.jump 0xABC) := by decide

theorem test_decode_call : decodeTableWord 16 0b0010111111111111 = some (.call 0xFFF) := by decide

theorem test_decode_skipEqImm : decodeTableWord 16 0b0011101001000010 = some (.skipEqImm 10 0x42) := by decide

theorem test_decode_skipNeqImm : decodeTableWord 16 0b0100000110000001 = some (.skipNeqImm 1 0x81) := by decide

theorem test_decode_skipEqReg : decodeTableWord 16 0b0101101010110000 = some (.skipEqReg 10 11) := by decide

theorem test_decode_setImm : decodeTableWord 16 0b0110000111111010 = some (.setImm 1 0xFA) := by decide

theorem test_decode_addImm : decodeTableWord 16 0b0111000100001111 = some (.addImm 1 0x0F) := by decide

theorem test_decode_setReg : decodeTableWord 16 0b1000101010110000 = some (.setReg 10 11) := by decide

theorem test_decode_orReg : decodeTableWord 16 0b1000000100100001 = some (.orReg 1 2) := by decide

theorem test_decode_andReg : decodeTableWord 16 0b1000000100100010 = some (.andReg 1 2) := by decide

theorem test_decode_xorReg : decodeTableWord 16 0b1000000100100011 = some (.xorReg 1 2) := by decide

theorem test_decode_addReg : decodeTableWord 16 0b1000101010110100 = some (.addReg 10 11) := by decide

theorem test_decode_subReg : decodeTableWord 16 0b1000101010110101 = some (.subReg 10 11) := by decide

theorem test_decode_shiftRight : decodeTableWord 16 0b1000101010110110 = some (.shiftRight 10 11) := by decide

theorem test_decode_subReverse : decodeTableWord 16 0b1000101010110111 = some (.subReverse 10 11) := by decide

theorem test_decode_shiftLeft : decodeTableWord 16 0b1000101010111110 = some (.shiftLeft 10 11) := by decide

theorem test_decode_skipNeqReg : decodeTableWord 16 0b1001101010110000 = some (.skipNeqReg 10 11) := by decide

theorem test_decode_setIndex : decodeTableWord 16 0b1010000100100011 = some (.setIndex 0x123) := by decide

theorem test_decode_jumpOffset : decodeTableWord 16 0b1011001100000000 = some (.jumpOffset 0x300) := by decide

theorem test_decode_random : decodeTableWord 16 0b1100000100001111 = some (.random 1 0x0F) := by decide

theorem test_decode_drawSprite : decodeTableWord 16 0b1101000100100011 = some (.drawSprite 1 2 3) := by decide

theorem test_decode_skipKeyPressed : decodeTableWord 16 0b1110100110011110 = some (.skipKeyPressed 9) := by decide

theorem test_decode_skipKeyNotPressed : decodeTableWord 16 0b1110100110100001 = some (.skipKeyNotPressed 9) := by decide

theorem test_decode_getDelay : decodeTableWord 16 0b1111101000000111 = some (.getDelay 10) := by decide

theorem test_decode_waitKey : decodeTableWord 16 0b1111101000001010 = some (.waitKey 10) := by decide

theorem test_decode_setDelay : decodeTableWord 16 0b1111101000010101 = some (.setDelay 10) := by decide

theorem test_decode_setSound : decodeTableWord 16 0b1111101000011000 = some (.setSound 10) := by decide

theorem test_decode_addToIndex : decodeTableWord 16 0b1111101000011110 = some (.addToIndex 10) := by decide

theorem test_decode_fontCharAddress : decodeTableWord 16 0b1111101000101001 = some (.fontCharAddress 10) := by decide

theorem test_decode_bcd : decodeTableWord 16 0b1111101000110011 = some (.bcd 10) := by decide

theorem test_decode_registerDump : decodeTableWord 16 0b1111111101010101 = some (.registerDump 15) := by decide

theorem test_decode_registerLoad : decodeTableWord 16 0b1111000101100101 = some (.registerLoad 1) := by decide

/-- The unknown words that spec/95_test_vectors.md section 2.1 lists. -/
theorem test_unknown_words :
    [0x0000, 0x00E1, 0x00EF, 0x00FE, 0x01E0, 0x0FEE, 0x0123, 0x5121, 0x512F, 0x9121, 0x8128, 0x8129, 0x812D, 0x812F,
     0xE000, 0xE19F, 0xE1A0, 0xF000, 0xF108, 0xF1FF, 0xF175, 0xF185, 0xFFFF].all
      (fun w => decodeTableWord 16 w == none) = true := by decide

/-- One byte is no instruction, and the bytes after the first two are left (R60). -/
theorem test_decode_bytes :
    decodeBytes [0x12] = .error .truncated ∧ decodeBytes [0x12, 0x34, 0x56] = .ok (.jump 0x234, [0x56]) := by
  constructor <;> rfl

/-! ### One step, on the vectors of spec/95_test_vectors.md -/

/-- V-D1, V-D2. -/
theorem test_clear :
    ran 0x00E0 (light [(1, 1)] .reset) (fun t => (t.fb, t.output, t.pc)) = some (State.reset.fb, okRedraw, 0x202) ∧
    ran 0x00E0 .reset (fun t => (t.fb, t.output, t.dirty)) = some (State.reset.fb, okRedraw, false) := by decide

/-- V-F12: the slot is not cleared. -/
theorem test_return :
    ran 0x00EE ((State.reset.setSp 2).setStack (State.reset.stack.set 1 0x0125)) (fun t => (t.pc, t.sp, t.slot 1)) =
      some (0x125, 1, 0x0125) := by decide

/-- V-F10. -/
theorem test_return_underflow :
    ran 0x00EE .reset (fun t => (faultRegs t, t.pc, t.sp, t.output)) =
      some ((.stackUnderflow, 0x0200, 0x00EE, 0), 0x200, 0, faulted) := by decide

/-- V-F1, V-F2. -/
theorem test_jump :
    ran 0x1ABC .reset State.pc = some 0xABC ∧
    ran 0x1200 .reset State.pc = some 0x200 := by decide

/-- V-F3, V-F4. -/
theorem test_call :
    ran 0x2FFF .reset (fun t => (t.slot 0, t.sp, t.pc)) = some (0x0202, 1, 0xFFF) ∧
    ran 0x2300 (State.reset.setPc 0xFFE) (fun t => (t.slot 0, t.sp, t.pc)) = some (0x1000, 1, 0x300) := by decide

/-- V-F11. -/
theorem test_call_overflow :
    ran 0x2300 (State.reset.setSp 16) (fun t => (faultRegs t, t.pc, t.sp, t.stack)) =
      some ((.stackOverflow, 0x0200, 0x2300, 0), 0x200, 16, State.reset.stack) := by decide

/-- V-F6. -/
theorem test_skip_eq_imm :
    ran 0x3A42 (regs [(10, 0x42)]) State.pc = some 0x204 ∧
    ran 0x3A42 (regs [(10, 0x43)]) State.pc = some 0x202 := by decide

/-- V-F7. -/
theorem test_skip_neq_imm :
    ran 0x4A42 (regs [(10, 0x42)]) State.pc = some 0x202 ∧
    ran 0x4A42 (regs [(10, 0x43)]) State.pc = some 0x204 := by decide

/-- V-F8, V-F8'. -/
theorem test_skip_eq_reg :
    ran 0x5AB0 (regs [(10, 7), (11, 7)]) State.pc = some 0x204 ∧
    ran 0x5AB0 (regs [(10, 7), (11, 8)]) State.pc = some 0x202 ∧
    ran 0x5AA0 (regs [(10, 7)]) State.pc = some 0x204 := by decide

/-- V-A1. -/
theorem test_set_imm :
    ran 0x6AFF (regs [(10, 1), (15, 7)]) (fun t => (t.getV 10, t.getV 15, t.pc, t.output)) = some (0xFF, 7, 0x202, okQuiet) := by decide

/-- V-A2, V-A3, V-A4. -/
theorem test_add_imm :
    ran 0x7A01 (regs [(10, 0xFF), (15, 7)]) (fun t => (t.getV 10, t.getV 15)) = some (0, 7) ∧
    ran 0x7F01 (regs [(15, 0xFF)]) (fun t => t.getV 15) = some 0 ∧
    ran 0x7A00 (regs [(10, 0x33)]) (fun t => t.getV 10) = some 0x33 := by decide

/-- V-A5. -/
theorem test_set_reg :
    ran 0x8AB0 (regs [(10, 1), (11, 0x99), (15, 7)]) (fun t => (t.getV 10, t.getV 11, t.getV 15)) = some (0x99, 0x99, 7) := by decide

/-- V-A6, S1, S4, S4'. -/
theorem test_or :
    ran 0x8AB1 (regs [(10, 0xF0), (11, 0x0F), (15, 7)]) (fun t => (t.getV 10, t.getV 15)) = some (0xFF, 7) ∧
    ran 0x8121 .reset (fun t => (t.getV 1, t.pc)) = some (0, 0x202) ∧
    ran 0x8121 (regs [(1, 0x0E), (2, 1)]) (fun t => t.getV 1) = some 0x0F ∧
    ran 0x8121 (regs [(1, 1), (2, 0x0E)]) (fun t => t.getV 1) = some 0x0F := by decide

/-- V-A7, S2. -/
theorem test_and :
    ran 0x8AB2 (regs [(10, 0xF0), (11, 0x3C), (15, 7)]) (fun t => (t.getV 10, t.getV 15)) = some (0x30, 7) ∧
    ran 0x8122 (regs [(1, 0x0F), (2, 0x0F)]) (fun t => (t.getV 1, t.pc)) = some (0x0F, 0x202) := by decide

/-- V-A8, V-A9, S3. -/
theorem test_xor :
    ran 0x8AB3 (regs [(10, 0xF0), (11, 0x3C), (15, 7)]) (fun t => (t.getV 10, t.getV 15)) = some (0xCC, 7) ∧
    ran 0x8AA3 (regs [(10, 0x5A)]) (fun t => t.getV 10) = some 0 ∧
    ran 0x8123 (regs [(1, 0x0F), (2, 0x0F)]) (fun t => (t.getV 1, t.pc)) = some (0, 0x202) := by decide

/-- V-A10 to V-A13. -/
theorem test_add_reg :
    ran 0x8AB4 (regs [(10, 0xFF), (11, 1)]) (fun t => (t.getV 10, t.getV 15)) = some (0, 1) ∧
    ran 0x8AB4 (regs [(10, 0x80), (11, 0x7F), (15, 1)]) (fun t => (t.getV 10, t.getV 15)) = some (0xFF, 0) ∧
    ran 0x8AB4 (regs [(10, 0xFF), (11, 0xFF)]) (fun t => (t.getV 10, t.getV 15)) = some (0xFE, 1) ∧
    ran 0x8AA4 (regs [(10, 0x90)]) (fun t => (t.getV 10, t.getV 15)) = some (0x20, 1) := by decide

/-- V-A14, V-A15. -/
theorem test_add_reg_vf :
    ran 0x8FA4 (regs [(15, 0xF0), (10, 0x20)]) (fun t => t.getV 15) = some 0x10 ∧
    ran 0x8AF4 (regs [(10, 5), (15, 7)]) (fun t => (t.getV 10, t.getV 15)) = some (0x0C, 0) := by decide

/-- V-A16 to V-A18, V-A22. -/
theorem test_sub_reg :
    ran 0x8AB5 (regs [(10, 5), (11, 5)]) (fun t => (t.getV 10, t.getV 15)) = some (0, 1) ∧
    ran 0x8AB5 (regs [(10, 3), (11, 5), (15, 1)]) (fun t => (t.getV 10, t.getV 15)) = some (0xFE, 0) ∧
    ran 0x8AB5 (regs [(10, 5), (11, 3)]) (fun t => (t.getV 10, t.getV 15)) = some (2, 1) ∧
    ran 0x8AA5 (regs [(10, 9)]) (fun t => (t.getV 10, t.getV 15)) = some (0, 1) := by decide

/-- V-A19 to V-A21. -/
theorem test_sub_reg_vf :
    ran 0x8AF5 (regs [(10, 1), (15, 1)]) (fun t => (t.getV 10, t.getV 15)) = some (0, 1) ∧
    ran 0x8FA5 (regs [(15, 5), (10, 3)]) (fun t => t.getV 15) = some 2 ∧
    ran 0x8FA5 (regs [(15, 3), (10, 5)]) (fun t => t.getV 15) = some 0xFE ∧
    ran 0x8FF5 (regs [(15, 9)]) (fun t => t.getV 15) = some 0 := by decide

/-- V-A23 to V-A26. -/
theorem test_shift_right :
    ran 0x8AB6 (regs [(10, 5), (11, 0xFF)]) (fun t => (t.getV 10, t.getV 15, t.getV 11)) = some (2, 1, 0xFF) ∧
    ran 0x8AB6 (regs [(10, 0xFE), (15, 1)]) (fun t => (t.getV 10, t.getV 15)) = some (0x7F, 0) ∧
    ran 0x8FA6 (regs [(15, 5), (10, 0xFF)]) (fun t => (t.getV 15, t.getV 10)) = some (2, 0xFF) ∧
    ran 0x8AF6 (regs [(10, 4), (15, 1)]) (fun t => (t.getV 10, t.getV 15)) = some (2, 0) := by decide

/-- V-A27 to V-A31. -/
theorem test_sub_reverse :
    ran 0x8AB7 (regs [(10, 5), (11, 3), (15, 1)]) (fun t => (t.getV 10, t.getV 15)) = some (0xFE, 0) ∧
    ran 0x8AB7 (regs [(10, 3), (11, 5)]) (fun t => (t.getV 10, t.getV 15)) = some (2, 1) ∧
    ran 0x8AB7 (regs [(10, 5), (11, 5)]) (fun t => (t.getV 10, t.getV 15)) = some (0, 1) ∧
    ran 0x8FA7 (regs [(15, 3), (10, 5)]) (fun t => t.getV 15) = some 2 ∧
    ran 0x8AF7 (regs [(10, 1), (15, 1)]) (fun t => (t.getV 10, t.getV 15)) = some (0, 1) := by decide

/-- V-A32. -/
theorem test_shift_left :
    ran 0x8ABE (regs [(10, 0x81), (11, 0xFF)]) (fun t => (t.getV 10, t.getV 15, t.getV 11)) = some (2, 1, 0xFF) := by decide

/-- V-F9, V-F9'. -/
theorem test_skip_neq_reg :
    ran 0x9AB0 (regs [(10, 7), (11, 7)]) State.pc = some 0x202 ∧
    ran 0x9AB0 (regs [(10, 7), (11, 8)]) State.pc = some 0x204 ∧
    ran 0x9AA0 (regs [(10, 7)]) State.pc = some 0x202 := by decide

/-- V-I1. -/
theorem test_set_index :
    ran 0xA123 (regs [(15, 7)]) (fun t => (t.i, t.getV 15, t.pc)) = some (0x123, 7, 0x202) := by decide

/-- V-F5, V-F5'. -/
theorem test_jump_offset :
    ran 0xBFFF (regs [(0, 0xFF)]) State.pc = some 0x10FE ∧
    ran 0xB300 (regs [(0, 4)]) State.pc = some 0x304 := by decide

/-- Rule R132: one draw is consumed, also under the mask 0, which leaves 0. -/
theorem test_random :
    ran 0xC100 (regs [(1, 0x55)]) (fun t => (t.rndCount, t.pc)) = some (1, 0x202) := by decide

/-- V-D4 to V-D6: both axes wrap. -/
theorem test_draw_sprite :
    ran 0xDAB1 ((((regs [(10, 63), (11, 31)]).setI 0x300).storeBytes 0x300 [0x80])) (fun t => (t.pixel 63 31, t.pixel 0 31, t.getV 15, t.output)) =
      some (true, false, 0, okRedraw) ∧
    ran 0xDAB1 ((((regs [(10, 60), (11, 0)]).setI 0x300).storeBytes 0x300 [0xFF])) (fun t => (t.pixel 60 0, t.pixel 3 0, t.pixel 4 0, t.pixel 59 0)) =
      some (true, true, false, false) ∧
    ran 0xDAB1 ((((regs [(10, 0x7F), (11, 0xFF)]).setI 0x300).storeBytes 0x300 [0xC0])) (fun t => (t.pixel 63 31, t.pixel 0 31, t.pixel 1 31)) =
      some (true, true, false) := by decide

/-- V-D8, V-D7, V-D3, V-D13: a collision; an empty sprite; N = 0 at an `I` outside memory; the origin in VF. -/
theorem test_draw_sprite_collision :
    ran 0xDAB1 (light [(3, 0), (7, 0)] (((regs [(10, 0), (11, 0)]).setI 0x300).storeBytes 0x300 [0xF0]))
      (fun t => ([t.pixel 0 0, t.pixel 2 0, t.pixel 3 0, t.pixel 7 0], t.getV 15, t.output)) =
      some ([true, true, false, true], 1, okRedraw) ∧
    ran 0xDAB1 (((((regs [(10, 0), (11, 0)]).setI 0x300).storeBytes 0x300 [0])).setV 15 1) (fun t => (t.getV 15, t.output)) = some (0, okQuiet) ∧
    ran 0xDAB0 ((regs [(10, 1), (11, 1), (15, 1)]).setI 0xFFFF) (fun t => (t.getV 15, t.output)) = some (0, okQuiet) ∧
    ran 0xDFA1 (((regs [(15, 5), (10, 2)]).setI 0x300).storeBytes 0x300 [0x80]) (fun t => (t.pixel 5 2, t.getV 15)) =
      some (true, 0) := by and_intros <;> decide

/-- V-K1, V-K3, V-K4. -/
theorem test_skip_key_pressed :
    ran 0xEA9E (press [3] (regs [(10, 3)])) State.pc = some 0x204 ∧
    ran 0xEA9E (press [4] (regs [(10, 3)])) State.pc = some 0x202 ∧
    ran 0xEA9E (press [15] (regs [(10, 15)])) State.pc = some 0x204 ∧
    ran 0xEA9E (press [0] (regs [(10, 0x10)])) (fun t => (faultRegs t, t.pc)) =
      some ((.outOfBoundsAccess, 0x0200, 0xEA9E, 0x0010), 0x200) := by decide

/-- V-K2, V-K5. -/
theorem test_skip_key_not_pressed :
    ran 0xEAA1 (press [3] (regs [(10, 3)])) State.pc = some 0x202 ∧
    ran 0xEAA1 (press [4] (regs [(10, 3)])) State.pc = some 0x204 ∧
    ran 0xEAA1 (regs [(10, 0xFF)]) faultRegs = some (.outOfBoundsAccess, 0x0200, 0xEAA1, 0x00FF) := by decide

/-- V-K6. -/
theorem test_get_delay :
    ran 0xFA07 ((regs [(10, 1)]).setDt 0x2A) (fun t => (t.getV 10, t.dt, t.pc)) = some (0x2A, 0x2A, 0x202) := by decide

/-- V-K11, V-K12. -/
theorem test_wait_key :
    ran 0xFA0A (press [9, 3] (regs [(10, 0x55)])) (fun t => (t.getV 10, t.pc, t.output)) = some (3, 0x202, okQuiet) ∧
    ran 0xFA0A (press [0] (regs [(10, 0x55)])) (fun t => t.getV 10) = some 0 ∧
    ran 0xFA0A (press [15] .reset) (fun t => t.getV 10) = some 15 := by decide

/-- V-K10. -/
theorem test_wait_key_stalls :
    ran 0xFA0A (regs [(10, 0x55)]) (fun t => (t.getV 10, t.pc, t.output)) = some (0x55, 0x200, some ⟨.stalled, false⟩) := by decide

/-- V-K7, V-K9. -/
theorem test_set_delay :
    ran 0xFA15 (regs [(10, 0x2A)]) (fun t => (t.dt, t.st, t.pc)) = some (0x2A, 0, 0x202) ∧
    ran 0xFF15 (regs [(15, 9)]) State.dt = some 9 := by decide

/-- V-K8. -/
theorem test_set_sound :
    ran 0xFA18 (regs [(10, 0x2A)]) (fun t => (t.st, t.dt, t.pc)) = some (0x2A, 0, 0x202) := by decide

/-- V-I2, V-I3. -/
theorem test_add_to_index :
    ran 0xFA1E ((regs [(10, 1), (15, 7)]).setI 0x0FFF) (fun t => (t.i, t.getV 15, t.output)) = some (0x1000, 7, okQuiet) ∧
    ran 0xFA1E ((regs [(10, 2)]).setI 0xFFFF) State.i = some 1 := by decide

/-- V-I4, V-I5, V-I6. -/
theorem test_font_char_address :
    ran 0xFA29 (regs [(10, 10)]) State.i = some 0x32 ∧
    ran 0xFA29 (regs [(10, 15)]) State.i = some 0x4B ∧
    ran 0xFA29 ((regs [(10, 0x10)]).setI 0x77) (fun t => (faultRegs t, t.i)) =
      some ((.outOfBoundsAccess, 0x0200, 0xFA29, 0x0010), 0x77) := by decide

/-- V-I7, V-I8, V-I9. -/
theorem test_bcd :
    ran 0xFA33 ((regs [(10, 0x9C)]).setI 0x300) (bytesAt 0x300 3) = some [1, 5, 6] ∧
    ran 0xFA33 ((regs [(10, 9)]).setI 0x300) (bytesAt 0x300 3) = some [0, 0, 9] ∧
    ran 0xFA33 ((regs [(10, 0x64)]).setI 0x300) (bytesAt 0x300 3) = some [1, 0, 0] ∧
    ran 0xFA33 ((regs [(10, 0xFF)]).setI 0x300) (bytesAt 0x300 3) = some [2, 5, 5] ∧
    ran 0xFA33 ((regs [(10, 0x9C)]).setI 0x0FFD) (bytesAt 0xFFD 3) = some [1, 5, 6] := by decide

/-- V-I10, V-I11: no partial store. -/
theorem test_bcd_faults :
    ran 0xFA33 ((regs [(10, 0x7B)]).setI 0x0FFE) (fun t => (faultRegs t, bytesAt 0xFFE 2 t)) =
      some ((.outOfBoundsAccess, 0x0200, 0xFA33, 0x1000), [0, 0]) ∧
    ran 0xFA33 ((regs [(10, 0x7B)]).setI 0x1234) faultRegs = some (.outOfBoundsAccess, 0x0200, 0xFA33, 0x1234) := by decide

/-- V-I12, V-I13, V-I16. -/
theorem test_register_dump :
    ran 0xF055 ((regs [(0, 0xAB), (1, 0xCD)]).setI 0x300) (fun t => (bytesAt 0x300 2 t, t.i)) = some ([0xAB, 0], 0x300) ∧
    ran 0xF255 ((regs [(0, 1), (1, 2), (2, 3), (3, 4)]).setI 0x300) (fun t => (bytesAt 0x300 4 t, t.i)) =
      some ([1, 2, 3, 0], 0x300) ∧
    ran 0xF055 ((regs [(0, 0x77)]).setI 0x0FFF) (bytesAt 0xFFF 1) = some [0x77] := by decide

/-- V-I15, V-I16. -/
theorem test_register_dump_faults :
    ran 0xFF55 ((regs [(0, 0x10)]).setI 0x0FF1) (fun t => (faultRegs t, bytesAt 0xFF1 15 t)) =
      some ((.outOfBoundsAccess, 0x0200, 0xFF55, 0x1000), List.replicate 15 0) ∧
    ran 0xF055 ((regs [(0, 0x77)]).setI 0x1000) faultRegs = some (.outOfBoundsAccess, 0x0200, 0xF055, 0x1000) := by decide

/-- V-I17, V-I18, V-I20. -/
theorem test_register_load :
    ran 0xF265 (((regs [(3, 0x55)]).setI 0x300).storeBytes 0x300 [9, 8, 7, 6])
      (fun t => (t.getV 0, t.getV 1, t.getV 2, t.getV 3, t.i)) = some (9, 8, 7, 0x55, 0x300) ∧
    ran 0xFF65 .reset (fun t => t.v.toList) =
      some [0xF0, 0x90, 0x90, 0x90, 0xF0, 0x20, 0x60, 0x20, 0x20, 0x70, 0xF0, 0x10, 0xF0, 0x80, 0xF0, 0xF0] ∧
    ran 0xF065 (State.reset.setI 0x200) (fun t => t.getV 0) = some 0xF0 := by decide

/-- V-I19. -/
theorem test_register_load_faults :
    ran 0xF165 ((regs [(0, 0x11), (1, 0x22)]).setI 0x0FFF) (fun t => (faultRegs t, t.getV 0, t.getV 1)) =
      some ((.outOfBoundsAccess, 0x0200, 0xF165, 0x1000), 0x11, 0x22) := by decide

/-- Section 2.1, V-R4: zeroed memory is not a no-op. -/
theorem test_unknown_opcode :
    stepped .reset (fun t => (faultRegs t, t.pc, t.output)) =
      some ((.unknownOpcode, 0x0200, 0, 0), 0x200, faulted) ∧
    ran 0x8128 .reset faultRegs = some (.unknownOpcode, 0x0200, 0x8128, 0) := by decide

/-- V-M1 to V-M5. -/
theorem test_fetch_at_the_end :
    ran 0x6000 (State.reset.setPc 0xFFE) (fun t => (t.pc, t.output)) = some (0x1000, okQuiet) ∧
    stepped (State.reset.setPc 0x1000) faultRegs = some (.outOfBoundsAccess, 0x1000, 0, 0x1000) ∧
    stepped (State.reset.setPc 0x0FFF) faultRegs = some (.outOfBoundsAccess, 0x0FFF, 0, 0x1000) ∧
    stepped (State.reset.setPc 0x10FE) faultRegs = some (.outOfBoundsAccess, 0x10FE, 0, 0x10FE) ∧
    ran 0x3000 (State.reset.setPc 0xFFC) State.pc = some 0x1000 := by decide

/-- V-K13 to V-K15. -/
theorem test_tick :
    stepped (((State.reset.setDt 1).setSt 0).setSchedule [.tick]) (fun t => (t.dt, t.st)) = some (0, 0) ∧
    stepped (((State.reset.setDt 255).setSt 1).setSchedule [.tick]) (fun t => (t.dt, t.st)) = some (254, 0) ∧
    stepped (((State.reset.setDt 5).setFault .unknownOpcode 0x200 0 0).setSchedule [.tick]) (fun t => (t.dt, faultRegs t)) =
      some (4, .unknownOpcode, 0x200, 0, 0) := by decide

/-- V-R4, V-R5, and the image's first byte at 0x200. -/
theorem test_load_program :
    stepped (State.reset.setSchedule [.loadProgram [0x60, 0x01, 0x61, 0x02]]) (fun t => (bytesAt 0x1FF 6 t, t.loadResult)) =
      some ([0, 0x60, 0x01, 0x61, 0x02, 0], some .loaded) ∧
    stepped ((State.reset.storeBytes 0x200 [0x60, 0x01, 0x61, 0x02]).setSchedule [.loadProgram [0x12, 0x00]])
      (bytesAt 0x200 4) = some [0x12, 0x00, 0x61, 0x02] ∧
    stepped (State.reset.setSchedule [.loadProgram []]) State.mem = some [] := by decide

/-- V-R1. -/
theorem test_reset :
    stepped (((press [3] (State.reset.setSp 16)).setDt 9).setSchedule [.reset]) (fun t => t) = some State.reset := by decide

/-- Rule R204, V-M7: a second `Step` of a halted core keeps the first fault. -/
theorem test_halted_step :
    stepped (State.reset.setFault .stackOverflow 0x0210 0x2300 0) (fun t => (faultRegs t, t.pc, t.output)) =
      some ((.stackOverflow, 0x0210, 0x2300, 0), 0x200, faulted) := by decide

/-- Placing a word: at PC, high byte first; at 0x200 when the fetch rejects PC; in a halted core, which then runs. -/
theorem test_with_fetch_word :
    (State.reset.withFetchWord 16 0x1234).fetch.toOption = some 0x1234 ∧
    (State.reset.setPc 0xFFF).withFetchWord 16 0x1234 = State.reset.withFetchWord 16 0x1234 ∧
    ran 0x6A42 (State.reset.setFault .unknownOpcode 0x0200 0 0) (fun t => t.getV 10) = some 0x42 := by decide

/-! ### Witnesses: concrete states and operands that meet a statement's hypotheses -/

/-- A running core at the last PC the fetch accepts. -/
def top : State := State.reset.setPc 0xFFE

/-- A halted core. -/
def stopped : State := (State.reset.setFault .unknownOpcode 0x0200 0 0).setOutput (some ⟨.fault, false⟩)

/-- A sprite of one row, 0xC0, at `I` = 0x300, to be drawn at (63, 31) with `drawSprite 10 11 1`; (63, 31) is set. -/
def corner : State :=
  light [(63, 31)] (((regs [(10, 63), (11, 31)]).setI 0x300).storeBytes 0x300 [0xC0])

/-- A word that decodes. -/
theorem witness_EncodeOfDecodeIsIdentity :
    decodeWord 0x8AB4 = .ok (.addReg 10 11) := rfl

/-- A word and its row, for each of the three clauses; and a word that selects none. -/
theorem witness_DecodeSelectsTheMatchingRow :
    (∃ r ∈ opcodeTable, 0x8AB4#16 &&& r.mask = r.mtch) ∧ decodeWord 0x8AB4 = .ok (.addReg 10 11) ∧
    (∃ r ∈ opcodeTable, ∃ q ∈ opcodeTable, 0xF165#16 &&& r.mask = r.mtch ∧ 0xF165#16 &&& q.mask = q.mtch) ∧
    ¬ ∃ r ∈ opcodeTable, 0x8AB8#16 &&& r.mask = r.mtch := by and_intros <;> decide

/-- An unknown word of each family, and a neighbour that is known. -/
theorem witness_UnknownWordsByFamily :
    (fieldOp 0x00EF = 0 ∧ (0x00EF : Word) ≠ 0x00E0 ∧ (0x00EF : Word) ≠ 0x00EE) ∧
    (fieldOp 0x512F = 5 ∧ fieldN 0x512F ≠ 0) ∧ (fieldOp 0x9121 = 9 ∧ fieldN 0x9121 ≠ 0) ∧
    (fieldOp 0x812D = 8 ∧ (fieldN 0x812D).val ∈ [0x8, 0x9, 0xA, 0xB, 0xC, 0xD, 0xF]) ∧
    (fieldOp 0xE1A0 = 0xE ∧ fieldNN 0xE1A0 ≠ 0x9E ∧ fieldNN 0xE1A0 ≠ 0xA1) ∧
    (fieldOp 0xF175 = 0xF ∧ (fieldNN 0xF175).toNat ∉ [0x07, 0x0A, 0x15, 0x18, 0x1E, 0x29, 0x33, 0x55, 0x65]) ∧
    decodeWord 0x812D = .error (.unknownOpcode 0x812D) ∧ decodeWord 0x812E = .ok (.shiftLeft 1 2) := by and_intros <;> decide

/-- Two running states, with and without a schedule, at ADD_REG and at the end of memory. -/
theorem witness_StepRunsTheDecodedInstruction :
    let s := (State.reset.withFetchWord 16 0x8AB4).setSchedule [.step, .tick]
    let u := top.withFetchWord 16 0x6000
    (s.StepDue ∧ s.faultCause = .none ∧ s.fetch = .ok 0x8AB4 ∧ decodeWord 0x8AB4 = .ok (.addReg 10 11)) ∧
    (u.StepDue ∧ u.faultCause = .none ∧ u.fetch = .ok 0x6000 ∧ decodeWord 0x6000 = .ok (.setImm 0 0)) := by and_intros <;> decide

/-- A `Step` that completed and one that stalled. -/
theorem witness_StepEndReportsRedraw :
    State.reset.output = none ∧ (State.reset.setOutput (some ⟨.stalled, false⟩)).output ≠ none := by decide

/-- Both sides of the boundary. -/
theorem witness_FetchReadsTwoBytesHighFirst :
    top.pc.toNat ≤ 0xFFE ∧ 0xFFE < (State.reset.setPc 0xFFF).pc.toNat := by decide

/-- At 0xFFF and above the end of memory. -/
theorem witness_StepFaultsWhenFetchLeavesMemory :
    ((State.reset.setPc 0xFFF).StepDue ∧ (State.reset.setPc 0xFFF).faultCause = .none ∧
      0xFFE < (State.reset.setPc 0xFFF).pc.toNat) ∧
    0xFFE < (State.reset.setPc 0x10FE).pc.toNat := by decide

/-- The state after `Reset`, whose first word is 0x0000. -/
theorem witness_StepFaultsOnUnknownOpcode :
    State.reset.StepDue ∧ State.reset.Running ∧ State.reset.fetch = .ok 0x0000 ∧ ∀ i, decodeWord 0x0000 ≠ .ok i := by
  refine ⟨by decide, by decide, rfl, fun i h => ?_⟩
  rw [show decodeWord 0x0000 = .error (.unknownOpcode 0x0000) from rfl] at h
  cases h

/-- A halted core. -/
theorem witness_HaltedStepChangesNothing :
    stopped.StepDue ∧ stopped.faultCause ≠ .none := by decide

/-- A halted core that steps, and one that ticks. -/
theorem witness_OnlyResetEndsTheHaltedState :
    (∃ t, step stopped = .next t) ∧ stopped.faultCause ≠ .none ∧ stopped.schedule.head? ≠ some .reset ∧
    (∃ t, step (stopped.setSchedule [.tick]) = .next t) ∧
    (stopped.setSchedule [.tick]).schedule.head? ≠ some .reset := 
  ⟨⟨_, rfl⟩, by decide, by decide, ⟨_, rfl⟩, by decide⟩

/-- A fetch past the end, an unknown opcode, a RETURN on an empty stack and a store past the end, each halted after. -/
theorem witness_FaultingStepIsPrecise :
    (State.reset.StepDue ∧ State.reset.faultCause = .none ∧
      stepped State.reset (fun t => t.faultCause != .none) = some true) ∧
    stepped (State.reset.setPc 0xFFF) (fun t => t.faultCause != .none) = some true ∧
    ran 0x00EE .reset (fun t => t.faultCause != .none) = some true ∧
    ran 0xFA33 (State.reset.setI 0xFFE) (fun t => t.faultCause != .none) = some true := by decide

/-- CLEAR; a drawn pixel; a sprite that leaves memory; an instruction that draws nothing. -/
theorem witness_RedrawIffClearOrDrawnPixel :
    (let s := State.reset.withFetchWord 16 0x00E0
     s.StepDue ∧ s.Running ∧ s.dirty = false ∧ s.fetch = .ok 0x00E0 ∧ decodeWord 0x00E0 = .ok .clear) ∧
    (let s := corner.withFetchWord 16 0xDAB1
     s.StepDue ∧ s.Running ∧ s.dirty = false ∧ s.fetch = .ok 0xDAB1 ∧
       decodeWord 0xDAB1 = .ok (.drawSprite 10 11 1) ∧ s.RangeOk 1 ∧ s.readByte (s.i.toNat + 0) ≠ 0) ∧
    (let s := (State.reset.setI 0x1000).withFetchWord 16 0xDAB1
     s.StepDue ∧ s.Running ∧ s.dirty = false ∧ s.fetch = .ok 0xDAB1 ∧ ¬ s.RangeOk 1) ∧
    (let s := State.reset.withFetchWord 16 0x6000
     s.StepDue ∧ s.Running ∧ s.dirty = false ∧ s.fetch = .ok 0x6000 ∧ decodeWord 0x6000 = .ok (.setImm 0 0)) := by and_intros <;> decide

/-- An instruction that completes, one that stalls and one that faults. -/
theorem witness_InstructionsWriteOnlyTheirState :
    (∃ t, exec (.addReg 10 11) State.reset = .next t) ∧ (∃ t, exec (.waitKey 10) State.reset = .next t) ∧
    (∃ t, exec .ret State.reset = .next t) := ⟨⟨_, rfl⟩, ⟨_, rfl⟩, ⟨_, rfl⟩⟩

/-- Either clause, REGISTER_LOAD at the last register that spares VF among them. -/
theorem witness_VfWrittenAsFlagOrDestinationOnly :
    (∃ t, exec (.registerLoad 14) State.reset = .next t) ∧ (Instr.registerLoad 14).writesFlag = false ∧
    (Instr.registerLoad 14).destination 15 = false ∧ (Instr.registerLoad 15).destination 15 = true ∧
    (∃ t, exec (.addReg 14 15) State.reset = .next t ∧ t.faultCause = .none) ∧
    (Instr.addReg 14 15).writesFlag = true ∧ (Instr.addReg 14 15).destination 15 = false := 
  ⟨⟨_, rfl⟩, rfl, rfl, rfl, ⟨_, rfl, rfl⟩, rfl, rfl⟩

/-- An instruction other than SET_SOUND. -/
theorem witness_SoundTimerIsUnobservable :
    ∀ x, Instr.setDelay 0 ≠ .setSound x := by decide

/-- States that meet the invariant: after `Reset`, halted, and with a full stack and a PC at its bound. -/
theorem witness_EveryStepKeepsTheInvariant :
    (State.reset.Inv ∧ ∃ t, step State.reset = .next t) ∧ (stopped.Inv ∧ ∃ t, step stopped = .next t) ∧
    ((State.reset.setSp 16).setPc 0x10FE).Inv := 
  ⟨⟨by decide, _, rfl⟩, ⟨by decide, _, rfl⟩, by decide⟩

/-- The first and the last font address, and the first address above the font. -/
theorem witness_ResetValues :
    0 < Config.fontRom.length ∧ 0x4F < Config.fontRom.length ∧ ¬ 0x50 < Config.fontRom.length ∧ 0x50 ≤ 0x50 := by decide

/-- A halted core with a `Reset` due. -/
theorem witness_ResetDoesNotDependOnTheState :
    (stopped.setSchedule [.reset]).schedule = .reset :: [] := rfl

/-- Each timer at 0, at 1 and at 255. -/
theorem witness_TickDecrementsTheTimers :
    ((State.reset.setDt 1).setSchedule [.tick]).schedule = .tick :: [] ∧
    (State.reset.setDt 1).dt.toNat > 0 ∧ (State.reset.setDt 0).dt.toNat = 0 ∧ (State.reset.setDt 255).dt.toNat > 0 ∧
    (State.reset.setSt 1).st.toNat > 0 ∧ (State.reset.setSt 0).st.toNat = 0 ∧ (State.reset.setSt 255).st.toNat > 0 := by decide

/-- An image of the greatest length, one a byte longer, and the addresses around an image of two bytes. -/
theorem witness_LoadProgramCopiesOrRefuses :
    (State.reset.setSchedule [.loadProgram [0x12, 0x00]]).schedule = .loadProgram [0x12, 0x00] :: [] ∧
    (List.replicate 3584 (0xAA : Byte)).length ≤ 3584 ∧ 3584 < (List.replicate 3585 (0xAA : Byte)).length ∧
    0 < [0x12, 0x00].length ∧ 1 < [0x12, 0x00].length ∧ 0x1FF < 0x200 ∧ 0x200 + [0x12, 0x00].length ≤ 0x202 := by
  simp only [List.length_replicate]
  and_intros <;> decide

/-- A key write due, and another key. -/
theorem witness_KeyWriteSetsOneFlag :
    (State.reset.setSchedule [.writeKey 15 true]).schedule = .writeKey 15 true :: [] ∧ (0 : Key) ≠ 15 := by decide

/-- Running states, at the first PC and at the last the fetch accepts. -/
theorem witness_SetImmLoadsTheImmediate :
    State.reset.Running ∧ top.Running := by decide

/-- Running states, at the first PC and at the last the fetch accepts. -/
theorem witness_AddImmWrapsWithoutFlag :
    State.reset.Running ∧ top.Running := by decide

/-- Running states, at the first PC and at the last the fetch accepts. -/
theorem witness_SetRegCopiesTheRegister :
    State.reset.Running ∧ top.Running := by decide

/-- Running states, at the first PC and at the last the fetch accepts. -/
theorem witness_LogicWritesNoFlag :
    State.reset.Running ∧ top.Running := by decide

/-- Running states, at the first PC and at the last the fetch accepts. -/
theorem witness_RandomMasksOneDraw :
    State.reset.Running ∧ top.Running := by decide

/-- Running states, at the first PC and at the last the fetch accepts. -/
theorem witness_JumpSetsThePc :
    State.reset.Running ∧ top.Running := by decide

/-- Running states, at the first PC and at the last the fetch accepts. -/
theorem witness_JumpOffsetAddsV0 :
    State.reset.Running ∧ top.Running := by decide

/-- Running states, at the first PC and at the last the fetch accepts. -/
theorem witness_SetIndexLoadsTheAddress :
    State.reset.Running ∧ top.Running := by decide

/-- Running states, at the first PC and at the last the fetch accepts. -/
theorem witness_AddToIndexWrapsWithoutFlag :
    State.reset.Running ∧ top.Running := by decide

/-- Running states, at the first PC and at the last the fetch accepts. -/
theorem witness_ClearBlanksTheFrame :
    State.reset.Running ∧ top.Running := by decide

/-- Running states, at the first PC and at the last the fetch accepts. -/
theorem witness_TimerRegistersMove :
    State.reset.Running ∧ top.Running := by decide

/-- The sum at 255 and at 256, and a destination other than VF. -/
theorem witness_AddRegSetsTheCarry :
    State.reset.Running ∧ top.Running ∧ (15 : Reg) ≠ 10 ∧
    ((regs [(10, 0xFF), (11, 1)]).getV 10).toNat + ((regs [(10, 0xFF), (11, 1)]).getV 11).toNat > 255 ∧
    ¬ ((regs [(10, 0xFF), (11, 0)]).getV 10).toNat + ((regs [(10, 0xFF), (11, 0)]).getV 11).toNat > 255 := by decide

/-- Equal operands, and a subtrahend one greater. -/
theorem witness_SubtractionsSetNoBorrow :
    State.reset.Running ∧ top.Running ∧ (10 : Reg) ≠ 15 ∧
    ((regs [(10, 5), (11, 5)]).getV 10).toNat ≥ ((regs [(10, 5), (11, 5)]).getV 11).toNat ∧
    ¬ ((regs [(10, 5), (11, 6)]).getV 10).toNat ≥ ((regs [(10, 5), (11, 6)]).getV 11).toNat := by decide

/-- The bit shifted out set and clear, for either shift. -/
theorem witness_ShiftsIgnoreYAndSetTheBitOut :
    State.reset.Running ∧ top.Running ∧ (10 : Reg) ≠ 15 ∧
    ((regs [(10, 1)]).getV 10).toNat % 2 = 1 ∧ ¬ ((regs [(10, 0)]).getV 10).toNat % 2 = 1 ∧
    ((regs [(10, 0x80)]).getV 10).toNat / 128 = 1 ∧ ¬ ((regs [(10, 0x7F)]).getV 10).toNat / 128 = 1 := by decide

/-- A running state and a destination other than VF. -/
theorem witness_VfAsOperandUsesTheOldValue :
    State.reset.Running ∧ top.Running ∧ (14 : Reg) ≠ 15 := by decide

/-- One live entry, a full stack, and an empty one. -/
theorem witness_ReturnPopsTheNewestEntry :
    State.reset.Running ∧ State.reset.sp = 0 ∧ (State.reset.setSp 1).Running ∧ (State.reset.setSp 1).sp.val = (0 : Fin 16).val + 1 ∧
    (State.reset.setSp 16).Running ∧ (State.reset.setSp 16).sp.val = (15 : Fin 16).val + 1 := by decide

/-- The first free slot, and the 16th nested CALL. -/
theorem witness_CallPushesTheNextAddress :
    State.reset.Running ∧ State.reset.sp.val = (0 : Fin 16).val ∧
    (State.reset.setSp 15).Running ∧ (State.reset.setSp 15).sp.val = (15 : Fin 16).val ∧ (14 : Fin 16) ≠ 15 := by decide

/-- A full stack and an empty one. -/
theorem witness_StackFaultsAtItsLimits :
    (State.reset.setSp 16).Running ∧ (State.reset.setSp 16).sp = 16 ∧ State.reset.Running ∧ State.reset.sp = 0 := by decide

/-- The condition true and false. -/
theorem witness_ImmediateSkips :
    State.reset.Running ∧ top.Running ∧ (regs [(10, 0x42)]).getV 10 = 0x42 ∧ (regs [(10, 0x43)]).getV 10 ≠ 0x42 := by decide

/-- The condition true and false. -/
theorem witness_RegisterSkips :
    State.reset.Running ∧ top.Running ∧ (regs [(10, 7), (11, 7)]).getV 10 = (regs [(10, 7), (11, 7)]).getV 11 ∧
    (regs [(10, 7), (11, 8)]).getV 10 ≠ (regs [(10, 7), (11, 8)]).getV 11 := by decide

/-- Three CALLs, all three returned from, and the one call that fills the stack. -/
theorem witness_NestedCallsReturnInOrder :
    (State.reset.Running ∧ State.reset.sp.val + [0x210, 0x220, (0x230 : Addr12)].length ≤ 16 ∧
      (∀ a ∈ [0x210, 0x220, (0x230 : Addr12)], a.toNat ≤ 0xFFE) ∧ 0 < 3 ∧ 3 ≤ [0x210, 0x220, (0x230 : Addr12)].length ∧
      (State.reset.pc.toNat :: [0x210, 0x220, (0x230 : Addr12)].map BitVec.toNat)[3 - 3]? = some 0x200) ∧
    ((State.reset.setSp 15).Running ∧ (State.reset.setSp 15).sp.val + [(0xFFE : Addr12)].length ≤ 16 ∧
      (∀ a ∈ [(0xFFE : Addr12)], a.toNat ≤ 0xFFE) ∧ 0 < 1 ∧ 1 ≤ [(0xFFE : Addr12)].length ∧
      ((State.reset.setSp 15).pc.toNat :: [(0xFFE : Addr12)].map BitVec.toNat)[1 - 1]? = some 0x200) := by decide

/-- The least and the greatest digit. -/
theorem witness_FontCharAddressOfADigit :
    State.reset.Running ∧ top.Running ∧ (State.reset.getV 10).toNat ≤ 15 ∧ ((regs [(10, 15)]).getV 10).toNat ≤ 15 ∧ (regs [(10, 15)]).Running := by decide

/-- The last `I` whose three bytes lie in memory, and addresses on either side. -/
theorem witness_BcdStoresTheDigits :
    (State.reset.setI 0xFFD).Running ∧ (State.reset.setI 0xFFD).RangeOk 3 ∧ 0xFFC < (State.reset.setI 0xFFD).i.toNat ∧
    (State.reset.setI 0x300).RangeOk 3 ∧ (State.reset.setI 0x300).i.toNat + 3 ≤ 0x303 := by decide

/-- The last `I` for X = 0 and for X = 15, a register of the range, and addresses on either side. -/
theorem witness_RegisterDumpStoresTheRegisters :
    (State.reset.setI 0xFFF).Running ∧ (State.reset.setI 0xFFF).RangeOk ((0 : Reg).val + 1) ∧
    (State.reset.setI 0xFF0).RangeOk ((15 : Reg).val + 1) ∧ (15 : Reg) ≤ 15 ∧
    0xFEF < (State.reset.setI 0xFF0).i.toNat ∧ (State.reset.setI 0xFF0).i.toNat + (15 : Reg).val + 1 ≤ 0x1000 := by decide

/-- The last `I` for X = 0 and for X = 15, and registers inside and outside the range. -/
theorem witness_RegisterLoadLoadsTheRegisters :
    (State.reset.setI 0xFFF).Running ∧ (State.reset.setI 0xFFF).RangeOk ((0 : Reg).val + 1) ∧
    (State.reset.setI 0xFF0).RangeOk ((15 : Reg).val + 1) ∧ (0 : Reg) ≤ 0 ∧ (0 : Reg) < 1 := by decide

/-- The first `I` whose range leaves memory, for each instruction, and an `I` outside memory. -/
theorem witness_RangeFaultsBeforeTheFirstAccess :
    (State.reset.setI 0xFFE).Running ∧ ¬ (State.reset.setI 0x1000).RangeOk (1 : Fin 16).val ∧
    ¬ (State.reset.setI 0xFFE).RangeOk 3 ∧ ¬ (State.reset.setI 0x1000).RangeOk ((0 : Reg).val + 1) ∧
    ¬ (State.reset.setI 0xFF1).RangeOk ((15 : Reg).val + 1) ∧ ¬ (State.reset.setI 0xFFFF).RangeOk 3 := by decide

/-- The least and the greatest value above 15. -/
theorem witness_IndexFaultsAboveFifteen :
    (regs [(10, 16)]).Running ∧ 15 < ((regs [(10, 16)]).getV 10).toNat ∧ 15 < ((regs [(10, 255)]).getV 10).toNat := by decide

/-- A range that fits, the state after the dump with another register file, and a register of the range. -/
theorem witness_DumpThenLoadReturnsTheValues :
    let s := (regs [(0, 0xAB), (1, 0xCD)]).setI 0xFFE
    s.Running ∧ s.RangeOk ((1 : Reg).val + 1) ∧ (1 : Reg) ≤ 1 ∧
    ∃ t, exec (.registerDump 1) s = .next t ∧ (((t.setV 0 0).setPc 0x200).Running ∧
      ((t.setV 0 0).setPc 0x200).i = s.i ∧ Part.same .mem t ((t.setV 0 0).setPc 0x200)) := 
  ⟨by decide, by decide, by decide, _, rfl, by decide, rfl, fun _ => rfl⟩

/-- A dump over the next instruction. -/
theorem witness_StoreIsSeenByTheNextFetch :
    let s := (regs [(0, 0x12), (1, 0x34)]).setI 0x202
    s.Running ∧ 1 ≤ (1 : Reg).val ∧ s.RangeOk ((1 : Reg).val + 1) ∧ s.i.toNat = s.pc.toNat + 2 := by and_intros <;> decide

/-- A sprite that wraps at the corner and collides there, pixels inside and outside it, one that does not collide, and an empty one at an `I` outside memory. -/
theorem witness_DrawSpriteInvertsItsPixels :
    corner.Running ∧ corner.RangeOk (1 : Fin 16).val ∧ corner.SpriteHas 10 11 1 63 31 ∧ corner.SpriteHas 10 11 1 0 31 ∧
    ¬ corner.SpriteHas 10 11 1 1 31 ∧ (∃ px py, corner.SpriteHas 10 11 1 px py ∧ corner.pixel px py = true) ∧
    (¬ ∃ px py, (State.reset.setI 0xFFFF).SpriteHas 10 11 0 px py ∧ (State.reset.setI 0xFFFF).pixel px py = true) ∧
    (State.reset.setI 0xFFFF).RangeOk (0 : Fin 16).val ∧ (14 : Reg) ≠ 15 := by
  refine ⟨by decide, by decide, by decide, by decide, by decide, ⟨63, 31, by decide, by decide⟩, ?_, by decide, by decide⟩
  rintro ⟨_, _, ⟨_, _, h, _⟩, _⟩
  exact absurd h (Nat.not_lt_zero _)

/-- The corner sprite, and the state after its first draw. -/
theorem witness_DrawingTwiceRestoresTheFrame :
    corner.Running ∧ corner.RangeOk (1 : Fin 16).val ∧ (10 : Reg) ≠ 15 ∧ (11 : Reg) ≠ 15 ∧
    ∃ t, exec (.drawSprite 10 11 1) corner = .next t ∧ t.Running := 
  ⟨by decide, by decide, by decide, by decide, _, rfl, by decide⟩

/-- The greatest key number, pressed and not pressed. -/
theorem witness_KeySkips :
    (regs [(10, 15)]).Running ∧ ((regs [(10, 15)]).getV 10).toNat = (15 : Key).val ∧
    (press [15] (regs [(10, 15)])).pressed 15 = true ∧ (regs [(10, 15)]).pressed 15 = false := by decide

/-- Two keys pressed, and the last key alone. -/
theorem witness_WaitKeyReportsTheLeastKey :
    (press [9, 3] .reset).Running ∧ (press [9, 3] .reset).pressed 3 = true ∧
    (∀ j : Key, j < 3 → (press [9, 3] .reset).pressed j = false) ∧
    (press [15] .reset).pressed 15 = true ∧ (∀ j : Key, j < 15 → (press [15] .reset).pressed j = false) := by decide

/-- WAIT_KEY at PC and no key pressed. -/
theorem witness_WaitKeyStallsWithoutAKey :
    let s := State.reset.withFetchWord 16 0xFA0A
    s.StepDue ∧ s.Running ∧ s.fetch = .ok 0xFA0A ∧ decodeWord 0xFA0A = .ok (.waitKey 10) ∧
    ∀ k : Key, s.pressed k = false := by and_intros <;> decide

end Sys2Proof.Tests
end

section
/-! Proofs of the family spec/20_memory.md. -/

namespace Sys2Proof.Machine

/-- Settles O8 (R44, R61): at a PC up to 0xFFE the fetched word is the two bytes there, the high one first; above it the
fetch fails with the lowest out-of-range address. -/
theorem fetchReadsTwoBytesHighFirst : Obligations.FetchReadsTwoBytesHighFirst := by
  intro s
  constructor
  · intro hpc
    exact ⟨_, State.fetch_ok hpc, toNat_wordOfBytes _ _⟩
  · intro hpc
    exact State.fetch_error hpc

end Sys2Proof.Machine
end

section
/-! Proofs of the family spec/30_encoding.md. -/

namespace Sys2Proof

/-! ### A word is the encoding of its own fields, in the layout of each format (R62, R63) -/

theorem encodeA_fields (w : Word) : encodeA (w.extractLsb' 12 4) (fieldNNN w) = w := by
  apply BitVec.eq_of_toNat_eq
  have hop : (w.extractLsb' 12 4).toNat = w.toNat / 0x1000 := fieldOp_eq w
  rw [toNat_encodeA, hop, fieldNNN_toNat]
  omega

theorem encodeRI_fields (w : Word) : encodeRI (w.extractLsb' 12 4) (fieldX w) (fieldNN w) = w := by
  apply BitVec.eq_of_toNat_eq
  have hop : (w.extractLsb' 12 4).toNat = w.toNat / 0x1000 := fieldOp_eq w
  rw [toNat_encodeRI, hop, fieldX_val, fieldNN_toNat]
  omega

theorem encodeRR_fields (w : Word) :
    encodeRR (w.extractLsb' 12 4) (fieldX w) (fieldY w) (w.extractLsb' 0 4) = w := by
  apply BitVec.eq_of_toNat_eq
  have hop : (w.extractLsb' 12 4).toNat = w.toNat / 0x1000 := fieldOp_eq w
  have hn : (w.extractLsb' 0 4).toNat = w.toNat % 0x10 := fieldN_val w
  rw [toNat_encodeRR, hop, fieldX_val, fieldY_val, hn]
  omega

/-! ### The fields a mask keeps -/

theorem toNat_and_opMask (w : Word) : (w &&& 0xF000).toNat = fieldOp w * 0x1000 := by
  conv_lhs => rw [← encodeA_fields w, Laws.EncodedRow.encodeA_masked]
  rw [toNat_concat]
  exact Nat.add_zero _

theorem toNat_and_opNMask (w : Word) : (w &&& 0xF00F).toNat = fieldOp w * 0x1000 + (fieldN w).val := by
  conv_lhs => rw [← encodeRR_fields w, Laws.EncodedRow.encodeRR_masked]
  show (w.extractLsb' 12 4 ++ 0#4 ++ 0#4 ++ w.extractLsb' 0 4).toNat = _
  rw [toNat_concat, toNat_concat, toNat_concat]
  show (fieldOp w * 0x10 + 0) * 0x10 * 0x10 + (fieldN w).val = _
  omega

theorem toNat_and_opNNMask (w : Word) : (w &&& 0xF0FF).toNat = fieldOp w * 0x1000 + (fieldNN w).toNat := by
  conv_lhs => rw [← encodeRI_fields w, Laws.EncodedRow.encodeR_masked]
  rw [toNat_concat, toNat_concat]
  show (fieldOp w * 0x10 + 0) * 0x100 + (fieldNN w).toNat = _
  omega

/-- Two words agree in the fields a format fixes (R63). -/
def Format.SameFixedFields : Format → Word → Word → Prop
  | .z, w, m                          => w = m
  | .a, w, m | .ri, w, m | .rrn, w, m => fieldOp w = fieldOp m
  | .rr, w, m                         => fieldOp w = fieldOp m ∧ fieldN w = fieldN m
  | .r, w, m                          => fieldOp w = fieldOp m ∧ fieldNN w = fieldNN m

/-- Under a format's mask two words are equal exactly when the fields the format fixes are. -/
theorem Format.and_mask_eq_iff (f : Format) (w m : Word) :
    w &&& f.mask = m &&& f.mask ↔ f.SameFixedFields w m := by
  cases f with
  | z => rw [show Format.z.mask = BitVec.allOnes 16 from rfl, BitVec.and_allOnes, BitVec.and_allOnes, SameFixedFields]
  | a | ri | rrn =>
    rw [← BitVec.toNat_inj, Format.mask, toNat_and_opMask, toNat_and_opMask, SameFixedFields]
    omega
  | rr =>
    rw [← BitVec.toNat_inj, Format.mask, toNat_and_opNMask, toNat_and_opNMask, SameFixedFields, Fin.ext_iff]
    omega
  | r =>
    rw [← BitVec.toNat_inj, Format.mask, toNat_and_opNNMask, toNat_and_opNNMask, SameFixedFields,
      ← BitVec.toNat_inj (x := fieldNN w)]
    omega

/-- R65 in terms of fields: a word matches an instruction's row exactly when it has the fields the row fixes. -/
theorem Instr.row_matches_iff_fields (i : Instr) (w : Word) :
    w &&& i.row.mask = i.row.mtch ↔ i.row.format.SameFixedFields w i.row.mtch := by
  have hwf := Laws.EncodedRow.all_wellFormed i
  simp only [Instr.wellFormed, TableRow.wellFormed, TableRow.matchInMask, TableRow.maskOfFormat,
    Bool.and_eq_true, beq_iff_eq] at hwf
  obtain ⟨-, hin, hmask⟩ := hwf
  have hm : i.row.mtch &&& i.row.mask = i.row.mtch := by
    calc i.row.mtch &&& i.row.mask
        = i.row.mtch &&& i.row.mask ||| i.row.mtch &&& ~~~i.row.mask := by rw [hin]; exact BitVec.or_zero.symm
      _ = i.row.mtch := by rw [← BitVec.and_or_distrib_left, BitVec.or_not_self, BitVec.and_allOnes]
  rw [← Format.and_mask_eq_iff, ← hmask, hm]

/-- The rows of the opcode table are the rows of the instructions. -/
theorem mem_opcodeTable_iff (r : TableRow) : r ∈ opcodeTable ↔ ∃ i : Instr, i.row = r := by
  constructor
  · intro hr
    obtain ⟨i, -, hi⟩ := List.mem_map.1 hr
    exact ⟨i, hi⟩
  · rintro ⟨i, rfl⟩
    have hwf := Laws.EncodedRow.all_wellFormed i
    rw [Instr.wellFormed, Bool.and_eq_true, List.contains_iff_mem] at hwf
    exact hwf.1

/-! ### What the decoder answers

The proofs by cases write `Instr.row` out first: the match is then a closed word, whose fields are computed. -/

/-- An answer that fits the word: an instruction whose row's fields the word has, or the error that names the word. -/
def AnswerFits (w : Word) : Except DecodeError Instr → Prop
  | .ok i    => i.row.format.SameFixedFields w i.row.mtch
  | .error e => e = .unknownOpcode w

theorem decodeFamily0_fits (w : Word) : AnswerFits w (decodeFamily0 w) := by
  unfold decodeFamily0
  split
  case isTrue h => exact h
  split
  case isTrue h => exact h
  rfl

theorem decodeZeroNibble_fits {w : Word} {i : Reg → Reg → Instr}
    (hi : ∀ x y, fieldN w = 0 → AnswerFits w (.ok (i x y))) : AnswerFits w (decodeZeroNibble i w) := by
  unfold decodeZeroNibble
  split
  case isTrue hn => exact hi _ _ hn
  rfl

theorem decodeFamily8_fits {w : Word} (hop : fieldOp w = 0x8) : AnswerFits w (decodeFamily8 w) := by
  unfold decodeFamily8
  split
  case h_10 => rfl
  all_goals
    simp only [AnswerFits, Instr.row]
    rename_i hn
    exact ⟨hop, Fin.ext hn⟩

theorem decodeFamilyE_fits {w : Word} (hop : fieldOp w = 0xE) : AnswerFits w (decodeFamilyE w) := by
  unfold decodeFamilyE
  split
  case h_3 => rfl
  all_goals
    simp only [AnswerFits, Instr.row]
    rename_i hnn
    exact ⟨hop, BitVec.eq_of_toNat_eq hnn⟩

theorem decodeFamilyF_fits {w : Word} (hop : fieldOp w = 0xF) : AnswerFits w (decodeFamilyF w) := by
  unfold decodeFamilyF
  split
  case h_10 => rfl
  all_goals
    simp only [AnswerFits, Instr.row]
    rename_i hnn
    exact ⟨hop, BitVec.eq_of_toNat_eq hnn⟩

/-- The decoder is sound for the opcode table: each family answers with a row the word fits, or refuses the word. -/
theorem decodeWord_fits (w : Word) : AnswerFits w (decodeWord w) := by
  unfold decodeWord
  split
  case h_1 => exact decodeFamily0_fits w
  case h_6 hop | h_10 hop =>
    refine decodeZeroNibble_fits fun x y hn => ?_
    simp only [AnswerFits, Instr.row]
    exact ⟨hop, hn⟩
  case h_9 hop => exact decodeFamily8_fits hop
  case h_15 hop => exact decodeFamilyE_fits hop
  case h_16 hop => exact decodeFamilyF_fits hop
  case h_17 => rfl
  all_goals
    simp only [AnswerFits, Instr.row]
    assumption

/-- The decoder misses no row: a word with the fields an instruction's row fixes decodes to an instruction of
that row. -/
theorem decodeWord_of_fields {i : Instr} {w : Word} (h : i.row.format.SameFixedFields w i.row.mtch) :
    ∃ j, decodeWord w = .ok j ∧ j.row = i.row := by
  cases i with
  | clear | ret =>
    cases h
    exact ⟨_, rfl, rfl⟩
  | jump _ | call _ | skipEqImm _ _ | skipNeqImm _ _ | setImm _ _ | addImm _ _ | setIndex _ | jumpOffset _
  | random _ _ | drawSprite _ _ _ =>
    simp only [Instr.row] at h
    rw [decodeWord, show fieldOp w = _ from h]
    exact ⟨_, rfl, rfl⟩
  | skipEqReg _ _ | skipNeqReg _ _ =>
    simp only [Instr.row] at h
    obtain ⟨hop, hn⟩ := h
    rw [decodeWord, hop]
    exact ⟨_, if_pos hn, rfl⟩
  | setReg _ _ | orReg _ _ | andReg _ _ | xorReg _ _ | addReg _ _ | subReg _ _ | shiftRight _ _ | subReverse _ _
  | shiftLeft _ _ =>
    simp only [Instr.row] at h
    obtain ⟨hop, hn⟩ := h
    rw [decodeWord, hop]
    show ∃ j, decodeFamily8 w = .ok j ∧ _
    rw [decodeFamily8, hn]
    exact ⟨_, rfl, rfl⟩
  | skipKeyPressed _ | skipKeyNotPressed _ =>
    simp only [Instr.row] at h
    obtain ⟨hop, hnn⟩ := h
    rw [decodeWord, hop]
    show ∃ j, decodeFamilyE w = .ok j ∧ _
    rw [decodeFamilyE, hnn]
    exact ⟨_, rfl, rfl⟩
  | getDelay _ | waitKey _ | setDelay _ | setSound _ | addToIndex _ | fontCharAddress _ | bcd _ | registerDump _
  | registerLoad _ =>
    simp only [Instr.row] at h
    obtain ⟨hop, hnn⟩ := h
    rw [decodeWord, hop]
    show ∃ j, decodeFamilyF w = .ok j ∧ _
    rw [decodeFamilyF, hnn]
    exact ⟨_, rfl, rfl⟩

/-- R65: a word matches a row of the table exactly when it decodes to an instruction of that row. -/
theorem row_matches_iff_decodes {r : TableRow} (hr : r ∈ opcodeTable) (w : Word) :
    w &&& r.mask = r.mtch ↔ ∃ i, decodeWord w = .ok i ∧ i.row = r := by
  obtain ⟨i, rfl⟩ := (mem_opcodeTable_iff r).1 hr
  rw [Instr.row_matches_iff_fields]
  refine ⟨decodeWord_of_fields, ?_⟩
  rintro ⟨j, hj, hrow⟩
  have hfit := decodeWord_fits w
  rw [hj] at hfit
  rwa [← hrow]

/-- A word that decodes to no instruction is answered with the error that names it (R71). -/
theorem decodeWord_eq_unknownOpcode {w : Word} (h : ∀ i, decodeWord w ≠ .ok i) :
    decodeWord w = .error (.unknownOpcode w) := by
  have hfit := decodeWord_fits w
  cases hd : decodeWord w with
  | ok i => exact absurd hd (h i)
  | error e =>
    rw [hd] at hfit
    rw [hfit]

/-- The row of the instruction a word decodes to stands in the table, and the word matches it. -/
theorem row_of_decodes {w : Word} {i : Instr} (hi : decodeWord w = .ok i) :
    i.row ∈ opcodeTable ∧ w &&& i.row.mask = i.row.mtch := by
  have hmem : i.row ∈ opcodeTable := (mem_opcodeTable_iff _).2 ⟨i, rfl⟩
  exact ⟨hmem, (row_matches_iff_decodes hmem w).2 ⟨i, hi, rfl⟩⟩

/-- Settles O3 (R65): a row is matched exactly by the words that decode to an instruction of that row, so every clause
is about the one answer of the decoder. -/
theorem decodeSelectsTheMatchingRow : Obligations.DecodeSelectsTheMatchingRow := by
  refine ⟨rfl, by decide, fun w => ⟨?_, ?_⟩, fun w hnone => ?_, fun w i => row_of_decodes,
    fun w r hr q hq hwr hwq => ?_⟩
  · rintro ⟨i, hi⟩
    exact ⟨i.row, row_of_decodes hi⟩
  · rintro ⟨r, hr, hw⟩
    obtain ⟨i, hi, -⟩ := (row_matches_iff_decodes hr w).1 hw
    exact ⟨i, hi⟩
  · apply decodeWord_eq_unknownOpcode
    intro i hi
    obtain ⟨hmem, hmatch⟩ := row_of_decodes hi
    exact hnone i.row hmem hmatch
  · obtain ⟨i, hi, rfl⟩ := (row_matches_iff_decodes hr w).1 hwr
    obtain ⟨j, hj, rfl⟩ := (row_matches_iff_decodes hq w).1 hwq
    have hij : i = j := Except.ok.inj (hi.symm.trans hj)
    rw [hij]

end Sys2Proof
end

section
/-! Words and instructions correspond one to one (R65, R73): the word that decodes to an instruction is its encoding, so
`EncodedAs` is a statement about `encode`. -/

namespace Sys2Proof

/-! ### The fields of an encoded word -/

@[simp] theorem fieldOp_encodeA (op : BitVec 4) (nnn : Addr12) : fieldOp (encodeA op nnn) = op.toNat := by
  rw [fieldOp_eq, toNat_encodeA]
  omega

@[simp] theorem fieldNNN_encodeA (op : BitVec 4) (nnn : Addr12) : fieldNNN (encodeA op nnn) = nnn := by
  apply BitVec.eq_of_toNat_eq
  rw [fieldNNN_toNat, toNat_encodeA]
  omega

@[simp] theorem fieldOp_encodeRI (op : BitVec 4) (x : Reg) (nn : Byte) : fieldOp (encodeRI op x nn) = op.toNat := by
  rw [fieldOp_eq, toNat_encodeRI]
  omega

@[simp] theorem fieldX_encodeRI (op : BitVec 4) (x : Reg) (nn : Byte) : fieldX (encodeRI op x nn) = x := by
  apply Fin.ext
  rw [fieldX_val, toNat_encodeRI]
  omega

@[simp] theorem fieldNN_encodeRI (op : BitVec 4) (x : Reg) (nn : Byte) : fieldNN (encodeRI op x nn) = nn := by
  apply BitVec.eq_of_toNat_eq
  rw [fieldNN_toNat, toNat_encodeRI]
  omega

@[simp] theorem fieldOp_encodeRR (op : BitVec 4) (x y : Reg) (n : BitVec 4) :
    fieldOp (encodeRR op x y n) = op.toNat := by
  rw [fieldOp_eq, toNat_encodeRR]
  omega

@[simp] theorem fieldX_encodeRR (op : BitVec 4) (x y : Reg) (n : BitVec 4) : fieldX (encodeRR op x y n) = x := by
  apply Fin.ext
  rw [fieldX_val, toNat_encodeRR]
  omega

@[simp] theorem fieldY_encodeRR (op : BitVec 4) (x y : Reg) (n : BitVec 4) : fieldY (encodeRR op x y n) = y := by
  apply Fin.ext
  rw [fieldY_val, toNat_encodeRR]
  omega

@[simp] theorem fieldN_encodeRR (op : BitVec 4) (x y : Reg) (n : BitVec 4) :
    fieldN (encodeRR op x y n) = n.toFin := by
  apply Fin.ext
  show _ = n.toNat
  rw [fieldN_val, toNat_encodeRR]
  omega

/-- No bit of an instruction is dropped by its encoding, format by format (R60 to R72). -/
theorem decodeWord_encode (i : Instr) : decodeWord (encode i) = .ok i := by
  cases i with
  | clear | ret => rfl
  | jump _ | call _ | setIndex _ | jumpOffset _ =>
    rw [encode, decodeWord, fieldOp_encodeA, fieldNNN_encodeA]
    rfl
  | skipEqImm _ _ | skipNeqImm _ _ | setImm _ _ | addImm _ _ | random _ _ =>
    rw [encode, decodeWord, fieldOp_encodeRI, fieldX_encodeRI, fieldNN_encodeRI]
    rfl
  | skipKeyPressed _ | skipKeyNotPressed _ =>
    rw [encode, decodeWord, fieldOp_encodeRI, decodeFamilyE, fieldNN_encodeRI, fieldX_encodeRI]
    rfl
  | getDelay _ | waitKey _ | setDelay _ | setSound _ | addToIndex _ | fontCharAddress _ | bcd _ | registerDump _
  | registerLoad _ =>
    rw [encode, decodeWord, fieldOp_encodeRI, decodeFamilyF, fieldNN_encodeRI, fieldX_encodeRI]
    rfl
  | skipEqReg _ _ | skipNeqReg _ _ =>
    rw [encode, decodeWord, fieldOp_encodeRR]
    show decodeZeroNibble _ _ = _
    rw [decodeZeroNibble, fieldN_encodeRR, fieldX_encodeRR, fieldY_encodeRR]
    rfl
  | setReg _ _ | orReg _ _ | andReg _ _ | xorReg _ _ | addReg _ _ | subReg _ _ | shiftRight _ _ | subReverse _ _
  | shiftLeft _ _ =>
    rw [encode, decodeWord, fieldOp_encodeRR, decodeFamily8, fieldN_encodeRR, fieldX_encodeRR, fieldY_encodeRR]
    rfl
  | drawSprite _ _ _ =>
    rw [encode, decodeWord, fieldOp_encodeRR, fieldN_encodeRR, fieldX_encodeRR, fieldY_encodeRR]
    rfl

/-! ### A word is the encoding of the instruction it decodes to -/

theorem encodeA_eq_of_fieldOp {w : Word} {op : BitVec 4} (hop : fieldOp w = op.toNat) :
    encodeA op (fieldNNN w) = w := by
  obtain rfl : w.extractLsb' 12 4 = op := BitVec.eq_of_toNat_eq hop
  exact encodeA_fields w

theorem encodeRI_eq_of_fields {w : Word} {op : BitVec 4} {nn : Byte} (hop : fieldOp w = op.toNat)
    (hnn : fieldNN w = nn) : encodeRI op (fieldX w) nn = w := by
  obtain rfl : w.extractLsb' 12 4 = op := BitVec.eq_of_toNat_eq hop
  rw [← hnn]
  exact encodeRI_fields w

theorem encodeRR_eq_of_fields {w : Word} {op n : BitVec 4} (hop : fieldOp w = op.toNat)
    (hn : (fieldN w).val = n.toNat) : encodeRR op (fieldX w) (fieldY w) n = w := by
  obtain rfl : w.extractLsb' 12 4 = op := BitVec.eq_of_toNat_eq hop
  obtain rfl : w.extractLsb' 0 4 = n := BitVec.eq_of_toNat_eq hn
  exact encodeRR_fields w

/-- An answer that, if it is an instruction, is one with the given word as its encoding. -/
def AnswerEncodes (w : Word) : Except DecodeError Instr → Prop
  | .ok i    => encode i = w
  | .error _ => True

theorem decodeFamily0_encodes (w : Word) : AnswerEncodes w (decodeFamily0 w) := by
  unfold decodeFamily0
  split
  case isTrue h => exact h.symm
  split
  case isTrue h => exact h.symm
  trivial

theorem decodeZeroNibble_encodes {w : Word} {i : Reg → Reg → Instr}
    (hi : fieldN w = 0 → encode (i (fieldX w) (fieldY w)) = w) : AnswerEncodes w (decodeZeroNibble i w) := by
  unfold decodeZeroNibble
  split
  case isTrue hn => exact hi hn
  trivial

theorem decodeFamily8_encodes {w : Word} (hop : fieldOp w = 0x8) : AnswerEncodes w (decodeFamily8 w) := by
  unfold decodeFamily8
  split
  case h_10 => trivial
  all_goals exact encodeRR_eq_of_fields hop ‹_›

theorem decodeFamilyE_encodes {w : Word} (hop : fieldOp w = 0xE) : AnswerEncodes w (decodeFamilyE w) := by
  unfold decodeFamilyE
  split
  case h_3 => trivial
  all_goals exact encodeRI_eq_of_fields hop (BitVec.eq_of_toNat_eq ‹_›)

theorem decodeFamilyF_encodes {w : Word} (hop : fieldOp w = 0xF) : AnswerEncodes w (decodeFamilyF w) := by
  unfold decodeFamilyF
  split
  case h_10 => trivial
  all_goals exact encodeRI_eq_of_fields hop (BitVec.eq_of_toNat_eq ‹_›)

theorem decodeWord_encodes (w : Word) : AnswerEncodes w (decodeWord w) := by
  unfold decodeWord
  split
  case h_1 => exact decodeFamily0_encodes w
  case h_2 hop | h_3 hop | h_11 hop | h_12 hop => exact encodeA_eq_of_fieldOp hop
  case h_4 hop | h_5 hop | h_7 hop | h_8 hop | h_13 hop => exact encodeRI_eq_of_fields hop rfl
  case h_6 hop | h_10 hop =>
    exact decodeZeroNibble_encodes fun hn => encodeRR_eq_of_fields hop (congrArg Fin.val hn)
  case h_9 hop => exact decodeFamily8_encodes hop
  case h_14 hop => exact encodeRR_eq_of_fields hop rfl
  case h_15 hop => exact decodeFamilyE_encodes hop
  case h_16 hop => exact decodeFamilyF_encodes hop
  case h_17 => trivial

/-- R65, R73: the one word that decodes to an instruction is its encoding. -/
theorem decodeWord_eq_ok_iff (w : Word) (i : Instr) : decodeWord w = .ok i ↔ encode i = w := by
  constructor
  · intro h
    have henc := decodeWord_encodes w
    rwa [h] at henc
  · rintro rfl
    exact decodeWord_encode i

theorem encodedAs_of_toNat_encode {i : Instr} {n : Nat} (h : (encode i).toNat = n) : Machine.EncodedAs i n := by
  intro w
  rw [decodeWord_eq_ok_iff, ← h, BitVec.toNat_inj, eq_comm]

end Sys2Proof
end

section
/-! Proofs of the family spec/40_flow.md. -/

namespace Sys2Proof.Machine

/-! ### How an instruction that ends in a shared operation completes -/

theorem completes_of_goto {i : Instr} {s : State} {n : Nat} (hi : exec i s = goto n s) (hn : n < 0x10000) :
    Completes i s fun t => t.pc.toNat = n ∧ OnlyChanges [.pc] s t :=
  ⟨_, hi.trans (goto_fits s hn), toNat_ofNat_word hn, onlyChanges_setPc s _⟩

theorem completes_of_skipIf {i : Instr} {s : State} {c : Bool} {p : Prop} (hs : s.Running)
    (hi : exec i s = skipIf c s) (hc : c = true ↔ p) : Completes i s (Skips p s) := by
  obtain ⟨-, hpc⟩ := hs
  obtain ⟨t, ht, htpc, hframe⟩ := completes_of_goto hi (by split <;> omega)
  refine ⟨t, ht, fun hp => ?_, fun hp => ?_, hframe⟩
  · rw [htpc, if_pos (hc.2 hp)]
  · rw [htpc, if_neg (hp ∘ hc.1)]

theorem completes_of_raise {i : Instr} {s : State} {cause : FaultCause} {w a : Word}
    (hi : exec i s = raise cause w a s) : Completes i s (FaultTaken cause w a.toNat s) :=
  ⟨_, hi, rfl, rfl, rfl, rfl, rfl, onlyChanges_raise rfl⟩

/-! ### RETURN -/

/-- With `k + 1` live entries the newest stands in slot `k` (R18, R21). -/
theorem State.pop_of_sp_eq {s : State} {k : Fin 16} (h : s.sp.val = k.val + 1) :
    s.pop = some (s.slot k, s.setSp k.castSucc) := by
  have hsp : s.sp = k.succ := Fin.ext h
  simp [State.pop, State.slot, hsp, Fin.castSucc, Fin.castAdd, Fin.castLE]

theorem exec_ret_of_sp_eq {s : State} {k : Fin 16} (h : s.sp.val = k.val + 1) :
    exec .ret s = .next ((s.setSp k.castSucc).setPc (s.slot k)) := by
  change execRet s = _
  rw [execRet, State.pop_of_sp_eq h]

theorem exec_ret_of_sp_eq_zero {s : State} (h : s.sp = 0) :
    exec .ret s = raise .stackUnderflow (encode .ret) 0 s := by
  change execRet s = _
  rw [execRet, State.pop_empty (congrArg Fin.val h)]

/-! ### The obligations -/

/-- Settles O36 (R100): RETURN is a pop into PC, or a fault of the empty stack. -/
theorem returnPopsTheNewestEntry : Obligations.ReturnPopsTheNewestEntry := by
  refine ⟨encodedAs_of_toNat_encode rfl, fun s k _ hk => ?_, fun s _ h0 => ?_⟩
  · have hframe := (onlyChanges_setSp s k.castSucc).trans (onlyChanges_setPc _ (s.slot k))
    exact ⟨_, exec_ret_of_sp_eq hk, rfl, rfl, hframe.mono (by simp)⟩
  · obtain ⟨t, ht, hcause, -, -, -, -, hframe⟩ := completes_of_raise (exec_ret_of_sp_eq_zero h0)
    exact ⟨t, ht, hcause, hframe⟩

/-- Settles O37 (R101): every NNN fits PC. -/
theorem jumpSetsThePc : Obligations.JumpSetsThePc := by
  refine fun nnn => ⟨encodedAs_of_toNat_encode (toNat_encodeA _ _), fun s _ => ?_⟩
  exact completes_of_goto rfl (by omega)

/-- Settles O40 (R103): NNN + V[0] is at most 0x10FE, so it fits PC and is not reduced. -/
theorem jumpOffsetAddsV0 : Obligations.JumpOffsetAddsV0 := by
  refine fun nnn => ⟨encodedAs_of_toNat_encode (toNat_encodeA _ _), fun s _ => ?_⟩
  exact completes_of_goto rfl (by omega)

/-- Settles O41 (R104, R105): both are `skipIf` on the comparison with NN. -/
theorem immediateSkips : Obligations.ImmediateSkips := by
  refine fun x nn => ⟨encodedAs_of_toNat_encode (toNat_encodeRI _ _ _),
    encodedAs_of_toNat_encode (toNat_encodeRI _ _ _), fun s hs => ⟨?_, ?_⟩⟩
  · exact completes_of_skipIf hs rfl beq_iff_eq
  · exact completes_of_skipIf hs rfl bne_iff_ne

/-- Settles O42 (R106, R107): both are `skipIf` on the comparison of the two registers. -/
theorem registerSkips : Obligations.RegisterSkips := by
  refine fun x y => ⟨encodedAs_of_toNat_encode (toNat_encodeRR _ _ _ _),
    encodedAs_of_toNat_encode (toNat_encodeRR _ _ _ _), fun s hs => ⟨?_, ?_⟩⟩
  · exact completes_of_skipIf hs rfl beq_iff_eq
  · exact completes_of_skipIf hs rfl bne_iff_ne

end Sys2Proof.Machine
end

section
/-! Proofs of the family spec/41_alu.md. -/

namespace Sys2Proof.Machine

/-- In format RR the word is a constant of the row plus the register fields (R63). -/
theorem encodedAs_of_encodeRR {i : Instr} {op n : BitVec 4} {x y : Reg} {m : Nat} (hi : encode i = encodeRR op x y n)
    (hm : op.toNat * 0x1000 + n.toNat = m) : EncodedAs i (m + x.val * 0x100 + y.val * 0x10) := by
  apply encodedAs_of_toNat_encode
  rw [hi, toNat_encodeRR, ← hm, Nat.add_right_comm, Nat.add_right_comm (op.toNat * 0x1000)]

/-! ### How an instruction that ends with the default advance completes -/

/-- The default advance (R79) from `u`, the state a running core's instruction has computed, adds PC alone to what `u`
changed. -/
theorem exec_of_advance {i : Instr} {s u : State} {parts : List Part} (hs : s.Running)
    (hi : exec i s = advance u) (hpc : u.pc = s.pc) (hu : OnlyChanges parts s u) :
    ∃ w, exec i s = .next (u.setPc w) ∧ Advanced s (u.setPc w) ∧ OnlyChanges (parts ++ [.pc]) s (u.setPc w) := by
  obtain ⟨-, hle⟩ := hs
  refine ⟨_, hi.trans (advance_fits (hpc ▸ hle)), ?_, hu.trans (onlyChanges_setPc u _)⟩
  rw [Advanced, State.setPc_pc, hpc, toNat_ofNat_word (by omega)]

theorem completes_of_setV {i : Instr} {s : State} {x : Reg} {b : Byte} {n : Nat} (hs : s.Running)
    (hi : exec i s = advance (s.setV x b)) (hn : b.toNat = n) : Completes i s (SetsRegister x n s) := by
  obtain ⟨w, ht, hadv, hframe⟩ := exec_of_advance hs hi rfl (onlyChanges_setV s x b)
  refine ⟨_, ht, ?_, fun k hk => ?_, hadv, hframe⟩
  · rw [State.getV_setPc, State.getV_setV_self, hn]
  · rw [State.getV_setPc, State.getV_setV_ne s b hk]

/-- R120: the flag and the result, in this order, both computed from the values before. -/
theorem completes_of_setFlagged {i : Instr} {s : State} {x : Reg} {f : Bool} {b : Byte} {p : Prop} {n : Nat}
    (hs : s.Running) (hi : exec i s = advance (s.setFlagged x f b)) (hf : f = true ↔ p) (hn : b.toNat = n) :
    Completes i s (SetsFlagged x p n s) := by
  obtain ⟨w, ht, hadv, hframe⟩ := exec_of_advance hs hi rfl (onlyChanges_setFlagged s x f b)
  refine ⟨_, ht, ?_, fun hx => ?_, fun k hk hk' => ?_, hadv, hframe⟩
  · rw [State.getV_setPc, State.getV_setFlagged_self, hn]
  · rw [State.getV_setPc, State.getV_setFlagged_vf s f b hx, ← hf]
    cases f <;> simp [flagByte]
  · rw [State.getV_setPc, State.getV_setFlagged_other s f b hk hk']

theorem carry_iff (a b : Byte) : carry a b = true ↔ a.toNat + b.toNat > 255 := decide_eq_true_iff

/-! ### The obligations -/

/-- Settles O27 (R121): the byte written is NN. -/
theorem setImmLoadsTheImmediate : Obligations.SetImmLoadsTheImmediate := by
  refine fun x nn => ⟨encodedAs_of_toNat_encode (toNat_encodeRI _ _ _), fun s hs => ?_⟩
  exact completes_of_setV hs rfl rfl

/-- Settles O28 (R122): the sum of bytes is the sum modulo 256. -/
theorem addImmWrapsWithoutFlag : Obligations.AddImmWrapsWithoutFlag := by
  refine fun x nn => ⟨encodedAs_of_toNat_encode (toNat_encodeRI _ _ _), fun s hs => ?_⟩
  exact completes_of_setV hs rfl (BitVec.toNat_add _ _)

/-- Settles O29 (R123): the byte written is V[Y]. -/
theorem setRegCopiesTheRegister : Obligations.SetRegCopiesTheRegister := by
  refine fun x y => ⟨encodedAs_of_encodeRR rfl rfl, fun s hs => ?_⟩
  exact completes_of_setV hs rfl rfl

/-- Settles O30 (R124, R125, R126): the bitwise operations on bytes are those on their values. -/
theorem logicWritesNoFlag : Obligations.LogicWritesNoFlag := by
  refine fun x y => ⟨encodedAs_of_encodeRR rfl rfl, encodedAs_of_encodeRR rfl rfl, encodedAs_of_encodeRR rfl rfl,
    fun s hs => ⟨?_, ?_, ?_⟩⟩
  · exact completes_of_setV hs rfl (BitVec.toNat_or _ _)
  · exact completes_of_setV hs rfl (BitVec.toNat_and _ _)
  · exact completes_of_setV hs rfl (BitVec.toNat_xor _ _)

/-- Settles O31 (R127): the sum of bytes is the sum modulo 256, and `carry` compares the unreduced sum. -/
theorem addRegSetsTheCarry : Obligations.AddRegSetsTheCarry := by
  refine fun x y => ⟨encodedAs_of_encodeRR rfl rfl, fun s hs => ?_⟩
  exact completes_of_setFlagged hs rfl (carry_iff _ _) (BitVec.toNat_add _ _)

end Sys2Proof.Machine
end

section
/-! Proofs of the family spec/42_index_memory.md. -/

namespace Sys2Proof.Machine

/-- In format RI with a fixed low byte the word is a constant of the row plus the register field (R63). -/
theorem encodedAs_of_encodeRI {i : Instr} {op : BitVec 4} {x : Reg} {nn : Byte} {m : Nat}
    (hi : encode i = encodeRI op x nn) (hm : op.toNat * 0x1000 + nn.toNat = m) : EncodedAs i (m + x.val * 0x100) := by
  apply encodedAs_of_toNat_encode
  rw [hi, toNat_encodeRI, ← hm, Nat.add_right_comm]

theorem completes_of_setI {i : Instr} {s : State} {w : Word} {n : Nat} (hs : s.Running)
    (hi : exec i s = advance (s.setI w)) (hn : w.toNat = n) :
    Completes i s fun t => t.i.toNat = n ∧ Advanced s t ∧ OnlyChanges [.i, .pc] s t := by
  obtain ⟨pc', ht, hadv, hframe⟩ := exec_of_advance hs hi rfl (onlyChanges_setI s w)
  refine ⟨_, ht, ?_, hadv, hframe⟩
  rw [State.setPc_i, State.setI_i, hn]

/-- The sum of R142: a byte extended to a word keeps its value, and words add modulo 65536. -/
theorem toNat_add_zeroExtend_byte (a : Word) (b : Byte) :
    (a + b.zeroExtend 16).toNat = (a.toNat + b.toNat) % 65536 := by
  rw [BitVec.toNat_add, BitVec.toNat_setWidth_of_le (by decide)]

/-! ### The obligations -/

/-- Settles O44 (R141): NNN extended to a word keeps its value. -/
theorem setIndexLoadsTheAddress : Obligations.SetIndexLoadsTheAddress := by
  refine fun nnn => ⟨encodedAs_of_toNat_encode (toNat_encodeA _ _), fun s hs => ?_⟩
  exact completes_of_setI hs rfl (BitVec.toNat_setWidth_of_le (by decide))

/-- Settles O45 (R142): the sum of words is the sum modulo 65536. -/
theorem addToIndexWrapsWithoutFlag : Obligations.AddToIndexWrapsWithoutFlag := by
  refine fun x => ⟨encodedAs_of_encodeRI rfl rfl, fun s hs => ?_⟩
  exact completes_of_setI hs rfl (toNat_add_zeroExtend_byte _ _)

end Sys2Proof.Machine
end

section
/-! Proofs of the family spec/44_keys_timers.md. -/

namespace Sys2Proof.Machine

/-- Settles O58 (R173, R175, R176): each writes one value and ends with the default advance. -/
theorem timerRegistersMove : Obligations.TimerRegistersMove := by
  refine fun x => ⟨encodedAs_of_encodeRI rfl rfl, encodedAs_of_encodeRI rfl rfl, encodedAs_of_encodeRI rfl rfl,
    fun s hs => ⟨?_, ?_, ?_⟩⟩
  · exact completes_of_setV hs rfl rfl
  · obtain ⟨w, ht, hadv, hframe⟩ := exec_of_advance (i := .setDelay x) hs rfl (State.setDt_pc s (s.getV x))
      (onlyChanges_setDt s (s.getV x))
    exact ⟨_, ht, rfl, hadv, hframe⟩
  · obtain ⟨w, ht, hadv, hframe⟩ := exec_of_advance (i := .setSound x) hs rfl (State.setSt_pc s (s.getV x))
      (onlyChanges_setSt s (s.getV x))
    exact ⟨_, ht, rfl, hadv, hframe⟩

end Sys2Proof.Machine
end

section
/-! Proofs of the family 'other': decoding and encoding (spec/30_encoding.md). -/

namespace Sys2Proof

/-! ### The words each dispatch refuses (R66 to R71) -/

theorem decodeFamily0_eq_unknownOpcode_iff (w : Word) :
    decodeFamily0 w = .error (.unknownOpcode w) ↔ w ≠ 0x00E0 ∧ w ≠ 0x00EE := by
  unfold decodeFamily0
  split
  case isTrue h => simp [h]
  case isFalse h =>
    split
    case isTrue h' => simp [h']
    case isFalse h' => exact iff_of_true rfl ⟨h, h'⟩

theorem decodeZeroNibble_eq_unknownOpcode_iff (i : Reg → Reg → Instr) (w : Word) :
    decodeZeroNibble i w = .error (.unknownOpcode w) ↔ fieldN w ≠ 0 := by
  unfold decodeZeroNibble
  split <;> simp [*]

theorem decodeFamily8_eq_unknownOpcode_iff (w : Word) :
    decodeFamily8 w = .error (.unknownOpcode w) ↔ (fieldN w).val ∈ [0x8, 0x9, 0xA, 0xB, 0xC, 0xD, 0xF] := by
  unfold decodeFamily8
  split
  case h_10 =>
    have hlt := (fieldN w).isLt
    simp only [imp_false] at *
    simp only [List.mem_cons, List.not_mem_nil, true_iff]
    omega
  all_goals simp [*]

theorem decodeFamilyE_eq_unknownOpcode_iff (w : Word) :
    decodeFamilyE w = .error (.unknownOpcode w) ↔ fieldNN w ≠ 0x9E ∧ fieldNN w ≠ 0xA1 := by
  simp only [ne_eq, ← BitVec.toNat_inj]
  unfold decodeFamilyE
  split
  case h_3 h h' => exact iff_of_true rfl ⟨h, h'⟩
  all_goals simp [*]

theorem decodeFamilyF_eq_unknownOpcode_iff (w : Word) :
    decodeFamilyF w = .error (.unknownOpcode w) ↔
      (fieldNN w).toNat ∉ [0x07, 0x0A, 0x15, 0x18, 0x1E, 0x29, 0x33, 0x55, 0x65] := by
  unfold decodeFamilyF
  split
  case h_10 =>
    simp only [imp_false] at *
    simp [*]
  all_goals simp [*]

theorem fieldOp_lt (w : Word) : fieldOp w < 0x10 := (w.extractLsb' 12 4).isLt

/-! ### The obligations -/

/-- Settles O1: format by format, each field is read back as it was written. -/
theorem decodeOfEncodeIsIdentity : Obligations.DecodeOfEncodeIsIdentity := decodeWord_encode

/-- Settles O2: the one word that decodes to an instruction is its encoding. -/
theorem encodeOfDecodeIsIdentity : Obligations.EncodeOfDecodeIsIdentity :=
  fun w i => (decodeWord_eq_ok_iff w i).1

/-- Settles O4: the opcode nibble chooses the family, whose dispatch says which of its words it refuses. -/
theorem unknownWordsByFamily : Obligations.UnknownWordsByFamily := by
  intro w
  have hlt := fieldOp_lt w
  unfold decodeWord
  split
  case h_1 hop => simp [hop, decodeFamily0_eq_unknownOpcode_iff]
  case h_6 hop | h_10 hop => simp [hop, decodeZeroNibble_eq_unknownOpcode_iff]
  case h_9 hop => simp [hop, decodeFamily8_eq_unknownOpcode_iff]
  case h_15 hop => simp [hop, decodeFamilyE_eq_unknownOpcode_iff]
  case h_16 hop => simp [hop, decodeFamilyF_eq_unknownOpcode_iff]
  case h_17 =>
    simp only [imp_false] at *
    omega
  all_goals simp [*]

/-- Settles O5: each word is closed, so the decoder computes its instruction. -/
theorem writtenOutWordsDecode : Obligations.WrittenOutWordsDecode := by
  refine ⟨?_, ?_, ?_, ?_, ?_, ?_, ?_⟩ <;> rfl

end Sys2Proof
end

section
/-! Proofs of the family 'other': the Execution Cycle (spec/30_encoding.md section 6). -/

namespace Sys2Proof.Machine

/-! ### The parts of an Execution Cycle -/

theorem State.halted_eq_true_iff (s : State) : s.halted = true ↔ s.faultCause ≠ .none := bne_iff_ne

theorem State.endStep_of_output_none {s : State} (h : s.output = none) :
    s.endStep = (s.setOutput (some ⟨.ok, s.dirty⟩)).setDirty false := by
  simp only [State.endStep, h]

theorem State.endStep_of_output_some {s : State} {o : StepOutput} (h : s.output = some o) : s.endStep = s := by
  simp only [State.endStep, h]

theorem executionCycle_of_halted {s : State} (h : s.faultCause ≠ .none) :
    executionCycle s = .next (s.setOutput (some ⟨.fault, false⟩)) := by
  rw [executionCycle, if_pos ((State.halted_eq_true_iff s).2 h)]

theorem State.halted_eq_false {s : State} (h : s.faultCause = .none) : s.halted = false := by
  rw [State.halted, h]
  rfl

theorem executionCycle_of_decodes {s : State} {w : Word} {i : Instr} (h : s.faultCause = .none)
    (hw : s.fetch = .ok w) (hi : decodeWord w = .ok i) :
    executionCycle s = onNext State.endStep (exec i (s.setOutput none)) := by
  simp [executionCycle, State.halted_eq_false h, hw, hi]

theorem executionCycle_of_unknownOpcode {s : State} {w : Word} (h : s.faultCause = .none) (hw : s.fetch = .ok w)
    (hi : ∀ i, decodeWord w ≠ .ok i) : executionCycle s = raise .unknownOpcode w 0 s := by
  simp [executionCycle, State.halted_eq_false h, hw, decodeWord_eq_unknownOpcode hi]

theorem executionCycle_of_pc_gt {s : State} (h : s.faultCause = .none) (hpc : 0xFFE < s.pc.toNat) :
    executionCycle s = raise .outOfBoundsAccess 0 (BitVec.ofNat 16 (max s.pc.toNat 0x1000)) s := by
  simp [executionCycle, State.halted_eq_false h, State.fetch_error hpc]

/-- The lowest out-of-range address from a 16-bit address on fits a fault register. -/
theorem toNat_ofNat_max_word (w : Word) : (BitVec.ofNat 16 (max w.toNat 0x1000)).toNat = max w.toNat 0x1000 :=
  toNat_ofNat_word (by omega)

theorem faultTaken_of_raise {cause : FaultCause} {w a : Word} {n : Nat} {s t : State}
    (h : raise cause w a s = .next t) (hn : a.toNat = n) : FaultTaken cause w n s t := by
  have hframe := onlyChanges_raise h
  obtain rfl := raise_next h
  exact ⟨rfl, rfl, rfl, hn, rfl, hframe⟩

/-! ### The obligations -/

/-- Settles O6 (R75): a `Step` is one Execution Cycle, and the schedule has no part in its fetch. -/
theorem stepRunsTheDecodedInstruction : Obligations.StepRunsTheDecodedInstruction := by
  intro s w i hdue hrun hw hi
  rw [step_of_stepDue hdue]
  exact executionCycle_of_decodes hrun hw hi

/-- Settles O7 (R80 to R82): the end of a `Step` is decided by whether the outputs are there already. -/
theorem stepEndReportsRedraw : Obligations.StepEndReportsRedraw := by
  refine fun s => ⟨fun h => ?_, fun h => ?_, onlyChanges_endStep s⟩
  · rw [State.endStep_of_output_none h]
    exact ⟨rfl, rfl⟩
  · obtain ⟨o, ho⟩ := Option.ne_none_iff_exists'.1 h
    rw [State.endStep_of_output_some ho]
    exact ⟨rfl, rfl⟩

/-- Settles O9 (R77, R203): the fetch fails, so the cycle is the fault of its lowest out-of-range address. -/
theorem stepFaultsWhenFetchLeavesMemory : Obligations.StepFaultsWhenFetchLeavesMemory := by
  intro s hdue hrun hpc
  have hcycle := executionCycle_of_pc_gt (s := s.setSchedule s.schedule.tail) hrun hpc
  exact ⟨_, (step_of_stepDue hdue).trans hcycle, rfl, faultTaken_of_raise rfl (toNat_ofNat_max_word s.pc)⟩

/-- Settles O10 (R78, R206): the decoder refuses the word, so the cycle is the fault that names it. -/
theorem stepFaultsOnUnknownOpcode : Obligations.StepFaultsOnUnknownOpcode := by
  rintro s w hdue ⟨hrun, -⟩ hw hi
  have hcycle := executionCycle_of_unknownOpcode (s := s.setSchedule s.schedule.tail) hrun hw hi
  exact ⟨_, (step_of_stepDue hdue).trans hcycle, rfl, faultTaken_of_raise rfl rfl⟩

/-- Settles O11 (R76): the halted check comes first. -/
theorem haltedStepChangesNothing : Obligations.HaltedStepChangesNothing := by
  intro s hdue hhalt
  have hcycle := executionCycle_of_halted (s := s.setSchedule s.schedule.tail) hhalt
  have hframe := (onlyChanges_setSchedule s s.schedule.tail).trans (onlyChanges_setOutput _ (some ⟨.fault, false⟩))
  exact ⟨_, (step_of_stepDue hdue).trans hcycle, rfl, rfl, hframe.mono (by simp)⟩

end Sys2Proof.Machine
end

section
/-! Proofs of the family 'other': how every instruction ends, said once for all 34. PC is set after an update of the
state the instruction may write, or a fault is taken, or the `Step` stalls; the whole-machine rules follow from it. -/

namespace Sys2Proof.Machine

/-- Every live return address is at most 0x1000 (R31). -/
def State.LiveBounded (s : State) : Prop := ∀ k : Fin 16, k.val < s.sp.val → (s.slot k).toNat ≤ 0x1000

/-- `i`, executed in `s`, updates the state to `u` and then sets PC to `n`: what the update leaves unchanged, what it
keeps of the invariant, and how large `n` can be. -/
structure Retires (i : Instr) (s u : State) (n : Nat) : Prop where
  frame : OnlyChanges i.writes s u
  keeps_wf : Memory.wf s.mem = true → Memory.wf u.mem = true
  keeps_live : s.Running → s.LiveBounded → u.LiveBounded
  fits : s.Running → n < 0x10000
  pc_le : s.Running → s.LiveBounded → n ≤ 0x10FE

/-- The three ends of an instruction (R79, R80, R202). -/
def Ends (i : Instr) (s : State) : Prop :=
  (∃ u n, Retires i s u n ∧ exec i s = goto n u) ∨
  (∃ cause w a, cause ≠ .none ∧ exec i s = raise cause w a s) ∨
  exec i s = stall s

variable {i : Instr} {s u t : State} {n : Nat}

/-! ### The operand checks that fail -/

theorem withRange_out {len : Nat} {w : Word} {k : Answer} (h : ¬ s.RangeOk len) :
    withRange len w s k = raise .outOfBoundsAccess w (BitVec.ofNat 16 (max s.i.toNat 0x1000)) s :=
  (withRange_cases len w s k).elim (fun ⟨hok, _⟩ => absurd hok h) And.right

theorem withIndex_above {x : Reg} {w : Word} {k : Fin 16 → Answer} (h : ¬ (s.getV x).toNat < 16) :
    withIndex x w s k = raise .outOfBoundsAccess w ((s.getV x).zeroExtend 16) s :=
  (withIndex_cases x w s k).elim (fun ⟨hlt, _⟩ => absurd hlt h) And.right

/-! ### The instructions with an index operand, and WAIT_KEY -/

theorem exec_skipKeyPressed (x : Reg) (s : State) : exec (.skipKeyPressed x) s =
    withIndex x (encode (.skipKeyPressed x)) s fun k => skipIf (s.pressed k) s := rfl

theorem exec_skipKeyNotPressed (x : Reg) (s : State) : exec (.skipKeyNotPressed x) s =
    withIndex x (encode (.skipKeyNotPressed x)) s fun k => skipIf (!s.pressed k) s := rfl

theorem exec_fontCharAddress (x : Reg) (s : State) : exec (.fontCharAddress x) s =
    withIndex x (encode (.fontCharAddress x)) s fun d =>
      advance (s.setI (BitVec.ofNat 16 (Config.fontBase + 5 * d.val))) := rfl

theorem exec_waitKey_of_none {x : Reg} (h : s.leastPressed = none) : exec (.waitKey x) s = stall s := by
  change execWaitKey x s = _
  rw [execWaitKey, h]

theorem exec_waitKey_of_some {x : Reg} {k : Key} (h : s.leastPressed = some k) :
    exec (.waitKey x) s = advance (s.setV x (keyByte k)) := by
  change execWaitKey x s = _
  rw [execWaitKey, h]

/-! ### From one end to `Ends` -/

theorem State.LiveBounded.of_stack_eq (h : s.LiveBounded) (hsp : u.sp = s.sp) (hstack : u.stack = s.stack) :
    u.LiveBounded := by
  simpa only [State.LiveBounded, State.slot, hsp, hstack] using h

theorem ends_of_goto (hi : exec i s = goto n u) (h : Retires i s u n) : Ends i s := .inl ⟨u, n, h, hi⟩

theorem ends_of_raise {cause : FaultCause} {w a : Word} (hi : exec i s = raise cause w a s) (h : cause ≠ .none) :
    Ends i s :=
  .inr (.inl ⟨cause, w, a, h, hi⟩)

/-- An update that touches neither PC nor the stack, then the default advance. -/
theorem retires_of_advance (hframe : OnlyChanges i.writes s u) (hpc : u.pc = s.pc) (hsp : u.sp = s.sp)
    (hstack : u.stack = s.stack) (hwf : Memory.wf s.mem = true → Memory.wf u.mem = true) :
    Retires i s u (u.pc.toNat + 2) where
  frame := hframe
  keeps_wf := hwf
  keeps_live := fun _ h => h.of_stack_eq hsp hstack
  fits := fun ⟨_, hle⟩ => by rw [hpc]; omega
  pc_le := fun ⟨_, hle⟩ _ => by rw [hpc]; omega

/-- No update but that of PC. -/
theorem retires_of_jump (hn : s.Running → n ≤ 0x10FE) : Retires i s s n where
  frame := OnlyChanges.refl s _
  keeps_wf := id
  keeps_live := fun _ h => h
  fits := fun hs => by have := hn hs; omega
  pc_le := fun hs _ => hn hs

theorem retires_of_skip (c : Bool) : Retires i s s (s.pc.toNat + if c then 4 else 2) :=
  retires_of_jump fun ⟨_, hle⟩ => by split <;> omega

theorem ends_of_skipIf {c : Bool} (hi : exec i s = skipIf c s) : Ends i s := ends_of_goto hi (retires_of_skip c)

/-- An update of neither PC nor memory nor the stack, then the default advance. -/
theorem retires_of_quiet_advance (hframe : OnlyChanges i.writes s u)
    (hquiet : u.pc = s.pc ∧ u.sp = s.sp ∧ u.stack = s.stack ∧ u.mem = s.mem) :
    Retires i s u (u.pc.toNat + 2) := by
  obtain ⟨hpc, hsp, hstack, hmem⟩ := hquiet
  exact retires_of_advance hframe hpc hsp hstack fun h => hmem ▸ h

theorem ends_of_advance (hi : exec i s = advance u) (hframe : OnlyChanges i.writes s u)
    (hquiet : u.pc = s.pc ∧ u.sp = s.sp ∧ u.stack = s.stack ∧ u.mem = s.mem) : Ends i s :=
  ends_of_goto hi (retires_of_quiet_advance hframe hquiet)

theorem ends_of_withRange {len : Nat} {w : Word} (hi : exec i s = withRange len w s (advance u))
    (h : s.RangeOk len → Retires i s u (u.pc.toNat + 2)) : Ends i s := by
  by_cases hok : s.RangeOk len
  · exact ends_of_goto (hi.trans (withRange_ok hok)) (h hok)
  · exact ends_of_raise (hi.trans (withRange_out hok)) (by decide)

theorem ends_of_withIndex {x : Reg} {w : Word} {k : Fin 16 → Answer} (hi : exec i s = withIndex x w s k)
    (h : ∀ d, exec i s = k d → Ends i s) : Ends i s := by
  by_cases hd : (s.getV x).toNat < 16
  · exact h _ (hi.trans (withIndex_ok hd))
  · exact ends_of_raise (hi.trans (withIndex_above hd)) (by decide)

/-! ### How many entries are live (R19) -/

theorem State.sp_eq_zero_or_succ (s : State) : s.sp = 0 ∨ ∃ k : Fin 16, s.sp.val = k.val + 1 := by
  refine (Fin.eq_zero_or_eq_succ s.sp).imp_right fun ⟨k, hk⟩ => ⟨k, ?_⟩
  rw [hk, Fin.val_succ]

theorem State.sp_eq_16_or_lt (s : State) : s.sp.val = 16 ∨ ∃ k : Fin 16, s.sp.val = k.val := by
  by_cases h : s.sp.val < 16
  · exact .inr ⟨⟨s.sp.val, h⟩, rfl⟩
  · exact .inl (by omega)

/-! ### Each instruction's end -/

/-- RETURN sets PC to a live return address (R100). -/
theorem ends_ret (s : State) : Ends .ret s := by
  rcases s.sp_eq_zero_or_succ with h0 | ⟨k, hk⟩
  · exact ends_of_raise (exec_ret_of_sp_eq_zero h0) (by decide)
  · have hgoto : goto (s.slot k).toNat (s.setSp k.castSucc) = .next ((s.setSp k.castSucc).setPc (s.slot k)) := by
      rw [goto_fits _ (s.slot k).isLt, BitVec.ofNat_toNat, BitVec.setWidth_eq]
    refine ends_of_goto ((exec_ret_of_sp_eq hk).trans hgoto.symm) ?_
    exact {
      frame := onlyChanges_setSp s _
      keeps_wf := id
      keeps_live := fun _ h j hj => h j (by simp at hj; omega)
      fits := fun _ => (s.slot k).isLt
      pc_le := fun _ h => (h k (by omega)).trans (by decide) }

theorem State.push_of_sp_eq {k : Fin 16} (w : Word) (h : s.sp.val = k.val) :
    s.push w = some ((s.setStack (s.stack.set k.val w)).setSp k.succ) := by
  have hsp : s.sp = k.castSucc := Fin.ext h
  simp [State.push, hsp, Fin.succ]

theorem State.slot_setStack_set (s : State) (k j : Fin 16) (w : Word) :
    (s.setStack (s.stack.set k.val w)).slot j = if j = k then w else s.slot j := by
  rw [State.slot_setStack, Vector.getElem_set]
  simp only [Fin.ext_iff, State.slot, eq_comm]

theorem exec_call_of_sp_eq {k : Fin 16} (nnn : Addr12) (h : s.sp.val = k.val) (hpc : s.pc.toNat + 2 < 0x10000) :
    exec (.call nnn) s =
      goto nnn.toNat ((s.setStack (s.stack.set k.val (BitVec.ofNat 16 (s.pc.toNat + 2)))).setSp k.succ) := by
  change execCall nnn s = _
  rw [execCall, onWord_fits _ hpc, State.push_of_sp_eq _ h]

theorem exec_call_of_sp_eq_16 (nnn : Addr12) (h : s.sp.val = 16) (hpc : s.pc.toNat + 2 < 0x10000) :
    exec (.call nnn) s = raise .stackOverflow (encode (.call nnn)) 0 s := by
  change execCall nnn s = _
  rw [execCall, onWord_fits _ hpc, State.push_full _ h]

/-- CALL pushes PC + 2, at most 0x1000 where an instruction is executed, and sets PC to NNN (R102). -/
theorem ends_call (nnn : Addr12) (s : State) : Ends (.call nnn) s := by
  by_cases hpc : s.pc.toNat + 2 < 0x10000
  case neg =>
    have hgoto : exec (.call nnn) s = goto (s.pc.toNat + 2) s := by
      change execCall nnn s = _
      rw [execCall, onWord, if_neg hpc, goto, onWord, if_neg hpc]
    exact ends_of_goto hgoto (retires_of_jump fun ⟨_, hle⟩ => by omega)
  rcases s.sp_eq_16_or_lt with h16 | ⟨k, hk⟩
  · exact ends_of_raise (exec_call_of_sp_eq_16 nnn h16 hpc) (by decide)
  · refine ends_of_goto (exec_call_of_sp_eq nnn hk hpc) ?_
    exact {
      frame := (onlyChanges_setStack s _).trans (onlyChanges_setSp _ k.succ)
      keeps_wf := id
      keeps_live := fun ⟨_, hle⟩ h j hj => by
        rw [State.slot_setSp, State.slot_setStack_set]
        split
        case isTrue => rw [toNat_ofNat_word hpc]; omega
        case isFalse hne => exact h j (by have := Fin.val_ne_of_ne hne; simp at hj; omega)
      fits := fun _ => by omega
      pc_le := fun _ _ => by omega }

/-- Every instruction ends in one of the three ways. -/
theorem exec_ends (i : Instr) (s : State) : Ends i s := by
  cases i with
  | clear =>
    exact ends_of_advance rfl ((onlyChanges_setFb s blankFrame).trans (onlyChanges_setDirty _ true))
      ⟨rfl, rfl, rfl, rfl⟩
  | ret => exact ends_ret s
  | jump nnn | jumpOffset nnn => exact ends_of_goto rfl (retires_of_jump fun _ => by omega)
  | call nnn => exact ends_call nnn s
  | skipEqImm _ _ | skipNeqImm _ _ | skipEqReg _ _ | skipNeqReg _ _ => exact ends_of_skipIf rfl
  | setImm _ _ | addImm _ _ | setReg _ _ | orReg _ _ | andReg _ _ | xorReg _ _ | getDelay _ =>
    exact ends_of_advance rfl (onlyChanges_setV s _ _) ⟨rfl, rfl, rfl, rfl⟩
  | addReg _ _ | subReg _ _ | shiftRight _ _ | subReverse _ _ | shiftLeft _ _ =>
    exact ends_of_advance rfl (onlyChanges_setFlagged s _ _ _) ⟨rfl, rfl, rfl, rfl⟩
  | setIndex _ | addToIndex _ => exact ends_of_advance rfl (onlyChanges_setI s _) ⟨rfl, rfl, rfl, rfl⟩
  | random x nn =>
    exact ends_of_advance rfl ((onlyChanges_setV s x (s.rnd &&& nn)).trans (onlyChanges_countDraw _))
      ⟨rfl, rfl, rfl, rfl⟩
  | setDelay _ => exact ends_of_advance rfl (onlyChanges_setDt s _) ⟨rfl, rfl, rfl, rfl⟩
  | setSound _ => exact ends_of_advance rfl (onlyChanges_setSt s _) ⟨rfl, rfl, rfl, rfl⟩
  | drawSprite x y n =>
    exact ends_of_withRange rfl fun _ =>
      retires_of_quiet_advance (onlyChanges_finishDrawing s _) ⟨rfl, rfl, rfl, rfl⟩
  | skipKeyPressed x => exact ends_of_withIndex (exec_skipKeyPressed x s) fun _ => ends_of_skipIf
  | skipKeyNotPressed x => exact ends_of_withIndex (exec_skipKeyNotPressed x s) fun _ => ends_of_skipIf
  | fontCharAddress x =>
    exact ends_of_withIndex (exec_fontCharAddress x s) fun _ hd =>
      ends_of_advance hd (onlyChanges_setI s _) ⟨rfl, rfl, rfl, rfl⟩
  | waitKey x =>
    cases hk : s.leastPressed with
    | none => exact .inr (.inr (exec_waitKey_of_none hk))
    | some k => exact ends_of_advance (exec_waitKey_of_some hk) (onlyChanges_setV s x _) ⟨rfl, rfl, rfl, rfl⟩
  | bcd x =>
    refine ends_of_withRange rfl fun hok => retires_of_advance (onlyChanges_storeBytes s _ _) rfl rfl rfl fun hwf => ?_
    exact Memory.wf_writeBytes hwf (.inr (hok.resolve_left (by decide)))
  | registerDump x =>
    refine ends_of_withRange rfl fun hok => retires_of_advance (onlyChanges_storeBytes s _ _) rfl rfl rfl fun hwf => ?_
    refine Memory.wf_writeBytes hwf (.inr ((Nat.add_le_add_left ?_ _).trans (hok.resolve_left (by omega))))
    exact List.length_take_le _ _
  | registerLoad x =>
    refine ends_of_withRange rfl fun _ => retires_of_quiet_advance (onlyChanges_setAllV s _) ?_
    exact ⟨State.setAllV_pc s _, State.setAllV_sp s _, State.setAllV_stack s _, State.setAllV_mem s _⟩

/-- What an instruction that answers a next state can do. -/
theorem exec_next (h : exec i s = .next t) :
    (∃ u n, Retires i s u n ∧ n < 0x10000 ∧ t = u.setPc (BitVec.ofNat 16 n)) ∨
    (∃ cause w a, cause ≠ .none ∧ raise cause w a s = .next t) ∨
    t = s.setOutput (some ⟨.stalled, false⟩) := by
  rcases exec_ends i s with ⟨u, n, hr, e⟩ | ⟨cause, w, a, hcause, e⟩ | e
  · obtain ⟨hn, ht⟩ := goto_next (e.symm.trans h)
    exact .inl ⟨u, n, hr, hn, ht⟩
  · exact .inr (.inl ⟨cause, w, a, hcause, e.symm.trans h⟩)
  · cases e.symm.trans h
    exact .inr (.inr rfl)

/-- An instruction that a `Step` executes always answers a next state (R17, decision D30). -/
theorem exec_answers (i : Instr) (hs : s.Running) : ∃ t, exec i s = .next t := by
  rcases exec_ends i s with ⟨u, n, hr, e⟩ | ⟨cause, w, a, -, e⟩ | e
  · exact ⟨_, e.trans (goto_fits u (hr.fits hs))⟩
  · exact ⟨_, e⟩
  · exact ⟨_, e⟩

/-! ### What no instruction writes -/

theorem writes_subset (i : Instr) : i.writes ⊆ [.mem, .v, .i, .stack, .sp, .dt, .st, .fb, .dirty, .rnd] := by
  cases i <;> simp [Instr.writes]

theorem not_mem_writes (i : Instr) {p : Part} (hp : p ∈ [Part.pc, .key, .fault, .output, .load, .schedule]) :
    p ∉ i.writes := by
  intro h
  have hmem := writes_subset i h
  clear h
  revert p
  decide

theorem Retires.same (h : Retires i s u n) {p : Part} (hp : p ∈ [Part.pc, .key, .fault, .output, .load, .schedule]) :
    p.same s u :=
  h.frame p (not_mem_writes i hp)

end Sys2Proof.Machine
end

section
/-! Proofs of the family 'other': the display (spec/43_display.md). -/

namespace Sys2Proof.Machine

/-! ### A sprite's pixels -/

/-- The pixels of the 1 bits of DRAW_SPRITE's sprite (R160). -/
def State.sprite (s : State) (x y : Reg) (n : Fin 16) : List (Col × Row) :=
  spritePixels (s.getV x) (s.getV y) 0 (s.readBytes s.i.toNat n.val)

theorem exec_drawSprite (x y : Reg) (n : Fin 16) (s : State) :
    exec (.drawSprite x y n) s = withRange n.val (encode (.drawSprite x y n)) s
      (advance (s.finishDrawing (drawPixels ⟨s.fb, false, false⟩ (s.sprite x y n)))) := rfl

theorem State.length_readBytes (s : State) (a len : Nat) : (s.readBytes a len).length = len := by
  simp [State.readBytes]

theorem State.getElem_readBytes (s : State) (a len k : Nat) (h : k < (s.readBytes a len).length) :
    (s.readBytes a len)[k] = s.readByte (a + k) := by
  simp [State.readBytes]

theorem State.nodup_sprite (s : State) (x y : Reg) (n : Fin 16) : (s.sprite x y n).Nodup :=
  nodup_spritePixels _ _ _ _ (by rw [State.length_readBytes]; omega)

theorem State.mem_sprite_iff (s : State) (x y : Reg) (n : Fin 16) (px : Col) (py : Row) :
    (px, py) ∈ s.sprite x y n ↔ s.SpriteHas x y n px py := by
  simp only [State.sprite, mem_spritePixels, State.length_readBytes, State.getElem_readBytes, Prod.mk.injEq,
    Fin.ext_iff, spriteCol, spriteRow, Fin.val_ofNat, Nat.zero_add]
  constructor
  · rintro ⟨r, hr, c, hc, hbit, hx, hy⟩
    exact ⟨⟨r, by omega⟩, ⟨c, hc⟩, hr, hx, hy, hbit⟩
  · rintro ⟨r, c, hr, hx, hy, hbit⟩
    exact ⟨r, hr, c, c.isLt, hbit, hx, hy⟩

theorem byte_ne_zero_iff (b : Byte) : b ≠ 0 ↔ ∃ c : Fin 8, b.getLsbD (7 - c.val) = true := by
  constructor
  · intro hb
    by_contra! hnone
    refine hb (BitVec.eq_of_getLsbD_eq fun j hj => ?_)
    have hbit := hnone ⟨7 - j, by omega⟩
    rw [show 7 - (7 - j) = j by omega] at hbit
    simpa using hbit
  · rintro ⟨c, hc⟩ rfl
    simp at hc

/-- A sprite has a pixel exactly if one of its bytes is not 0 (R165). -/
theorem State.exists_spriteHas_iff (s : State) (x y : Reg) (n : Fin 16) :
    (∃ px py, s.SpriteHas x y n px py) ↔ ∃ r, r < n.val ∧ s.readByte (s.i.toNat + r) ≠ 0 := by
  simp only [byte_ne_zero_iff]
  constructor
  · rintro ⟨-, -, r, c, hr, -, -, hbit⟩
    exact ⟨r, hr, c, hbit⟩
  · rintro ⟨r, hr, c, hbit⟩
    exact ⟨⟨_, Nat.mod_lt _ (by decide)⟩, ⟨_, Nat.mod_lt _ (by decide)⟩, ⟨r, by omega⟩, c, hr, rfl, rfl, hbit⟩

/-! ### The state after the loop -/

theorem State.pixel_finishDrawing (s : State) (d : Drawing) (px : Col) (py : Row) :
    (s.finishDrawing d).pixel px py = framePixel d.fb (px, py) := rfl

theorem State.getV_finishDrawing_vf (s : State) (d : Drawing) :
    (s.finishDrawing d).getV 15 = flagByte d.collision := by
  rw [State.finishDrawing, State.getV_setDirty, State.getV_setV_self]

theorem State.getV_finishDrawing_ne (s : State) (d : Drawing) {k : Reg} (h : k ≠ 15) :
    (s.finishDrawing d).getV k = s.getV k := by
  rw [State.finishDrawing, State.getV_setDirty, State.getV_setV_ne _ _ h, State.getV_setFb]

theorem State.dirty_finishDrawing (s : State) (d : Drawing) :
    (s.finishDrawing d).dirty = (s.dirty || d.changed) := rfl

theorem drawSprite_pixel (s : State) (x y : Reg) (n : Fin 16) (px : Col) (py : Row)
    [Decidable (s.SpriteHas x y n px py)] :
    framePixel (drawPixels ⟨s.fb, false, false⟩ (s.sprite x y n)).fb (px, py) =
      if s.SpriteHas x y n px py then !s.pixel px py else s.pixel px py := by
  rw [drawPixels_framePixel _ _ (s.nodup_sprite x y n)]
  simp only [State.mem_sprite_iff]
  rfl

theorem drawSprite_collision_iff (s : State) (x y : Reg) (n : Fin 16) :
    (drawPixels ⟨s.fb, false, false⟩ (s.sprite x y n)).collision = true ↔
      ∃ px py, s.SpriteHas x y n px py ∧ s.pixel px py = true := by
  rw [drawPixels_collision _ _ (s.nodup_sprite x y n), Bool.false_or, List.any_eq_true, Prod.exists]
  simp only [State.mem_sprite_iff]
  rfl

theorem drawSprite_changed_iff (s : State) (x y : Reg) (n : Fin 16) :
    (drawPixels ⟨s.fb, false, false⟩ (s.sprite x y n)).changed = true ↔ ∃ px py, s.SpriteHas x y n px py := by
  rw [drawPixels_changed, Bool.false_or, Bool.not_eq_true', List.isEmpty_eq_false_iff_exists_mem, Prod.exists]
  simp only [State.mem_sprite_iff]

theorem flagByte_eq_one_iff (b : Bool) : flagByte b = 1 ↔ b = true := by cases b <;> decide

theorem flagByte_eq_zero_iff (b : Bool) : flagByte b = 0 ↔ ¬ b = true := by cases b <;> decide

/-! ### The obligations -/

/-- Settles O54 (R161): the blank frame has no pixel set, and DIRTY is set whatever the frame was. -/
theorem clearBlanksTheFrame : Obligations.ClearBlanksTheFrame := by
  refine ⟨encodedAs_of_toNat_encode rfl, fun s hs => ?_⟩
  obtain ⟨w, ht, hadv, hframe⟩ := exec_of_advance (i := .clear) hs rfl rfl
    ((onlyChanges_setFb s blankFrame).trans (onlyChanges_setDirty _ true))
  refine ⟨_, ht, fun px py => ?_, rfl, hadv, hframe⟩
  rw [State.pixel_setPc, State.pixel_setDirty, State.pixel_setFb]
  simp [blankFrame]

/-- Settles O55 (R160, R162): the pixels of a sprite are distinct, so the loop inverts each of them once and compares
each with the frame before. -/
theorem drawSpriteInvertsItsPixels : Obligations.DrawSpriteInvertsItsPixels := by
  classical
  intro x y n
  refine ⟨encodedAs_of_toNat_encode (toNat_encodeRR _ _ _ _), fun s hs hok => ?_⟩
  obtain ⟨w, ht, hadv, hframe⟩ := exec_of_advance hs ((exec_drawSprite x y n s).trans (withRange_ok hok)) rfl
    (onlyChanges_finishDrawing s _)
  refine ⟨_, ht, fun px py hin => ?_, fun px py hout => ?_, fun hhit => ?_, fun hmiss => ?_, fun k hk => ?_, ?_,
    hadv, hframe⟩
  · rw [State.pixel_setPc, State.pixel_finishDrawing, drawSprite_pixel, if_pos hin]
  · rw [State.pixel_setPc, State.pixel_finishDrawing, drawSprite_pixel, if_neg hout]
  · rw [State.getV_setPc, State.getV_finishDrawing_vf, flagByte_eq_one_iff, drawSprite_collision_iff]
    exact hhit
  · rw [State.getV_setPc, State.getV_finishDrawing_vf, flagByte_eq_zero_iff, drawSprite_collision_iff]
    exact hmiss
  · rw [State.getV_setPc, State.getV_finishDrawing_ne s _ hk]
  · rw [State.setPc_dirty, State.dirty_finishDrawing, Bool.or_eq_true, drawSprite_changed_iff]

/-- The sprite is a matter of the two origin registers, `I` and memory alone. -/
theorem State.spriteHas_congr {s t : State} {x y : Reg} (n : Fin 16) (px : Col) (py : Row) (hx : t.getV x = s.getV x)
    (hy : t.getV y = s.getV y) (hi : t.i = s.i) (hmem : Part.mem.same s t) :
    t.SpriteHas x y n px py ↔ s.SpriteHas x y n px py := by
  simp only [Part.same] at hmem
  simp only [State.SpriteHas, hx, hy, hi, hmem]

/-- Settles O56 (R164): the first draw leaves the sprite as it is, so the second inverts the same pixels back, and it
collides where the first one set a pixel. -/
theorem drawingTwiceRestoresTheFrame : Obligations.DrawingTwiceRestoresTheFrame := by
  intro s x y n hs hok hx hy
  obtain ⟨t, ht, hin, hout, -, -, hv, -, -, hframe⟩ := (drawSpriteInvertsItsPixels x y n).2 s hs hok
  refine ⟨t, ht, fun hrun => ?_⟩
  have hi : t.i = s.i := hframe .i (by decide)
  have hsprite (px py) : t.SpriteHas x y n px py ↔ s.SpriteHas x y n px py :=
    State.spriteHas_congr n px py (hv x hx) (hv y hy) hi (hframe .mem (by decide))
  have hok' : t.RangeOk n.val := by rwa [State.RangeOk, hi]
  obtain ⟨u, hu, hin', hout', hhit, hmiss, -⟩ := (drawSpriteInvertsItsPixels x y n).2 t hrun hok'
  refine ⟨u, hu, fun px py => ?_, ?_⟩
  · by_cases h : s.SpriteHas x y n px py
    · rw [hin' px py ((hsprite px py).2 h), hin px py h, Bool.not_not]
    · rw [hout' px py (mt (hsprite px py).1 h), hout px py h]
  · have hiff : (∃ px py, t.SpriteHas x y n px py ∧ t.pixel px py = true) ↔
        ∃ px py, s.SpriteHas x y n px py ∧ s.pixel px py = false := by
      refine exists_congr fun px => exists_congr fun py => ?_
      rw [hsprite]
      refine and_congr_right fun h => ?_
      rw [hin px py h, Bool.not_eq_true']
    rw [← hiff]
    refine ⟨fun h1 => ?_, hhit⟩
    by_contra hno
    rw [hmiss hno] at h1
    exact absurd h1 (by decide)

end Sys2Proof.Machine
end

section
/-! Proofs of the family 'other': the rules of the whole machine (spec/10_state.md, spec/60_exceptions.md,
spec/70_reset_and_hazards.md section 1). -/

namespace Sys2Proof.Machine

variable {i : Instr} {s t u : State}

/-! ### What one operation can do -/

/-- The host's next operation is `Step`, or another one that stands in the schedule. -/
theorem stepDue_or_scheduled (s : State) :
    s.StepDue ∨ ∃ op ops, s.schedule = op :: ops ∧ op ≠ .step := by
  rcases e : s.schedule with _ | ⟨op, ops⟩
  · exact .inl (by rw [State.StepDue, e]; rfl)
  · by_cases h : op = .step
    · exact .inl (by rw [State.StepDue, e]; exact h)
    · exact .inr ⟨op, ops, rfl, h⟩

/-- What the Execution Cycle of a running core can do: an instruction retires and DIRTY is reported, a fault is taken,
or the `Step` stalls. -/
theorem executionCycle_running_next (hrun : s.faultCause = .none) (h : executionCycle s = .next t) :
    (s.pc.toNat ≤ 0xFFE ∧ ∃ i u n, Retires i (s.setOutput none) u n ∧ n < 0x10000 ∧
      t = ((u.setPc (BitVec.ofNat 16 n)).setOutput (some ⟨.ok, u.dirty⟩)).setDirty false) ∨
    (∃ cause w a, cause ≠ .none ∧ raise cause w a s = .next t) ∨
    t = s.setOutput (some ⟨.stalled, false⟩) := by
  rcases executionCycle_next h with ⟨hhalt, -⟩ | ⟨-, ⟨-, hr⟩ | ⟨hpc, w, -, ⟨e, -, hr⟩ | ⟨i, u, -, hu, rfl⟩⟩⟩
  · exact absurd hrun hhalt
  · exact .inr (.inl ⟨_, _, _, by decide, hr⟩)
  · exact .inr (.inl ⟨_, _, _, by decide, hr⟩)
  · rcases exec_next hu with ⟨v, n, hv, hn, rfl⟩ | ⟨cause, w, a, hcause, hr⟩ | rfl
    · have hout : (v.setPc (BitVec.ofNat 16 n)).output = none := hv.same (p := .output) (by decide)
      exact .inl ⟨hpc, i, v, n, hv, hn, State.endStep_of_output_none hout⟩
    · obtain rfl := raise_next hr
      exact .inr (.inl ⟨cause, w, a, hcause, rfl⟩)
    · exact .inr (.inr rfl)

theorem onlyChanges_loadProgram (s : State) (bytes : List Byte) :
    OnlyChanges [.mem, .load] s (s.loadProgram bytes) := by
  unfold State.loadProgram
  split
  · exact (onlyChanges_storeBytes s _ bytes).trans (onlyChanges_setLoadResult _ _)
  · exact (onlyChanges_setLoadResult s _).mono (by simp)

/-- An operation that is neither `Step` nor `Reset` changes the timers, the keys, memory or the load's result. -/
theorem onlyChanges_perform {op : Operation} (hstep : op ≠ .step) (hreset : op ≠ .reset)
    (h : perform op s = .next t) : OnlyChanges [.dt, .st, .key, .mem, .load] s t := by
  cases op with
  | step => exact absurd rfl hstep
  | reset => exact absurd rfl hreset
  | tick =>
    cases h
    exact ((onlyChanges_setDt s _).trans (onlyChanges_setSt _ _)).mono (by simp)
  | writeKey k b =>
    cases h
    exact (onlyChanges_setKeys s _).mono (by simp)
  | readFrame =>
    cases h
    exact OnlyChanges.refl s _
  | loadProgram bytes =>
    cases h
    exact (onlyChanges_loadProgram s bytes).mono (by simp)

/-! ### The obligations on faults and frames -/

/-- Settles O12 (R204, R213): a `Step` of a halted core writes the outputs alone, and no other operation but `Reset`
writes a fault register. -/
theorem onlyResetEndsTheHaltedState : Obligations.OnlyResetEndsTheHaltedState := by
  intro s t hhalt h hreset
  rcases stepDue_or_scheduled s with hdue | ⟨op, ops, hops, hstep⟩
  · rw [step_of_stepDue hdue, executionCycle_of_halted (s := s.setSchedule s.schedule.tail) hhalt] at h
    cases h
    exact ⟨rfl, rfl, rfl, rfl⟩
  · have hop : op ≠ .reset := fun e => hreset (by rw [hops, e]; rfl)
    rw [step_of_schedule hops] at h
    exact onlyChanges_perform hstep hop h .fault (by decide)

/-- Settles O13 (R202, R212): of the ends of an Execution Cycle only the fault leaves the core halted. -/
theorem faultingStepIsPrecise : Obligations.FaultingStepIsPrecise := by
  intro s t hdue hrun h hhalt
  rw [step_of_stepDue hdue] at h
  have hrun' : (s.setSchedule s.schedule.tail).faultCause = .none := hrun
  rcases executionCycle_running_next hrun' h with ⟨-, i, u, n, hu, -, rfl⟩ | ⟨cause, w, a, -, hr⟩ | rfl
  · obtain ⟨hcause, -⟩ := hu.same (p := .fault) (by decide)
    exact absurd (hcause.trans hrun) hhalt
  · obtain ⟨-, hpc, -, -, hout, hframe⟩ := faultTaken_of_raise hr rfl
    exact ⟨((onlyChanges_setSchedule s _).trans hframe).mono (by simp), hpc, hout⟩
  · exact absurd hrun hhalt

theorem executionCycle_answers (s : State) : ∃ t, executionCycle s = .next t := by
  by_cases hrun : s.faultCause = .none
  case neg => exact ⟨_, executionCycle_of_halted hrun⟩
  by_cases hpc : s.pc.toNat ≤ 0xFFE
  case neg => exact ⟨_, executionCycle_of_pc_gt hrun (by omega)⟩
  by_cases hi : ∃ i, decodeWord (wordOfBytes (s.readByte s.pc.toNat) (s.readByte (s.pc.toNat + 1))) = .ok i
  · obtain ⟨i, hi⟩ := hi
    obtain ⟨u, hu⟩ := exec_answers (s := s.setOutput none) i ⟨hrun, hpc⟩
    exact ⟨u.endStep, by rw [executionCycle_of_decodes hrun (State.fetch_ok hpc) hi, hu]; rfl⟩
  · exact ⟨_, executionCycle_of_unknownOpcode hrun (State.fetch_ok hpc) (not_exists.1 hi)⟩

/-- Settles O14 (R17, decision D30): a `Step` executes an instruction only where the fetch accepts PC, and there every
end of an instruction answers. -/
theorem everyStepAnswersANextState : Obligations.EveryStepAnswersANextState := by
  intro s
  rcases stepDue_or_scheduled s with hdue | ⟨op, ops, hops, hstep⟩
  · rw [step_of_stepDue hdue]
    exact executionCycle_answers _
  · rw [step_of_schedule hops]
    cases op with
    | step => exact absurd rfl hstep
    | tick | writeKey _ _ | readFrame | loadProgram _ | reset => exact ⟨_, rfl⟩

/-- Settles O16: the three ends of an instruction write what it may write and PC, the fault registers and the outputs,
or the outputs. -/
theorem instructionsWriteOnlyTheirState : Obligations.InstructionsWriteOnlyTheirState := by
  intro i s t h
  rcases exec_next h with ⟨u, n, hu, -, rfl⟩ | ⟨cause, w, a, -, hr⟩ | rfl
  · refine (hu.frame.trans (onlyChanges_setPc u _)).mono fun p hp => ?_
    simp only [List.mem_append, List.mem_cons, List.not_mem_nil, or_false] at hp ⊢
    exact hp.elim (fun h => .inr (.inr (.inr h))) .inl
  · exact (onlyChanges_raise hr).mono (by simp)
  · exact (onlyChanges_setOutput s _).mono (by simp)

/-! ### The redraw signal -/

theorem dirty_mem_writes_iff (i : Instr) :
    Part.dirty ∈ i.writes ↔ i = .clear ∨ ∃ x y n, i = .drawSprite x y n := by
  cases i <;> simp [Instr.writes]

/-- The end of a completed `Step` reports DIRTY and clears it (R81). -/
theorem State.redraw_endStep_of_completed (h : s.output = none) :
    s.endStep.dirty = false ∧ ((∃ st, s.endStep.output = some ⟨st, true⟩) ↔ s.dirty = true) := by
  rw [State.endStep_of_output_none h]
  exact ⟨rfl, by simp⟩

theorem redraw_endStep_of_advance (h : advance s = .next u) (hout : s.output = none) :
    u.endStep.dirty = false ∧ ((∃ st, u.endStep.output = some ⟨st, true⟩) ↔ s.dirty = true) := by
  obtain ⟨-, rfl⟩ := advance_next h
  exact State.redraw_endStep_of_completed (s := s.setPc _) hout

/-- A stall or a fault requests no redraw (R80, R205). -/
theorem State.redraw_endStep_of_stopped {st : StepStatus} (hdirty : s.dirty = false)
    (h : s.output = some ⟨st, false⟩) :
    s.endStep.dirty = false ∧ ¬ ∃ st, s.endStep.output = some ⟨st, true⟩ := by
  rw [State.endStep_of_output_some h, h]
  exact ⟨hdirty, by simp⟩

theorem redraw_endStep_of_raise {cause : FaultCause} {w a : Word} (hdirty : s.dirty = false)
    (h : raise cause w a s = .next u) :
    u.endStep.dirty = false ∧ ¬ ∃ st, u.endStep.output = some ⟨st, true⟩ := by
  obtain rfl := raise_next h
  exact State.redraw_endStep_of_stopped hdirty rfl

/-- An instruction that does not write DIRTY requests no redraw, however it ends. -/
theorem no_redraw_of_dirty_not_mem (hwrites : Part.dirty ∉ i.writes) (hdirty : s.dirty = false)
    (hout : s.output = none) (h : exec i s = .next u) : u.endStep.dirty = false ∧ ¬ ∃ st, u.endStep.output = some ⟨st, true⟩ := by
  rcases exec_next h with ⟨v, n, hv, -, rfl⟩ | ⟨cause, w, a, -, hr⟩ | rfl
  · have hvout : (v.setPc (BitVec.ofNat 16 n)).output = none := (hv.same (p := .output) (by decide)).trans hout
    have hvdirty : (v.setPc (BitVec.ofNat 16 n)).dirty = false := (hv.frame .dirty hwrites).trans hdirty
    obtain ⟨hd, hiff⟩ := State.redraw_endStep_of_completed hvout
    exact ⟨hd, by rw [hiff, hvdirty]; decide⟩
  · exact redraw_endStep_of_raise hdirty hr
  · exact State.redraw_endStep_of_stopped hdirty rfl

/-- A DRAW_SPRITE requests a redraw exactly if its range is in memory and one of its bytes is not 0 (R165). -/
theorem redraw_iff_of_drawSprite {x y : Reg} {n : Fin 16} (hdirty : s.dirty = false) (hout : s.output = none)
    (h : exec (.drawSprite x y n) s = .next u) :
    u.endStep.dirty = false ∧ ((∃ st, u.endStep.output = some ⟨st, true⟩) ↔
      s.RangeOk n.val ∧ ∃ r, r < n.val ∧ s.readByte (s.i.toNat + r) ≠ 0) := by
  rcases execDrawSprite_next h with ⟨hok, h⟩ | ⟨hbad, hr⟩
  · obtain ⟨hd, hiff⟩ := redraw_endStep_of_advance h hout
    refine ⟨hd, hiff.trans ?_⟩
    rw [State.dirty_finishDrawing, hdirty, Bool.false_or, ← State.exists_spriteHas_iff s x y n,
      ← drawSprite_changed_iff, and_iff_right hok]
    rfl
  · obtain ⟨hd, hno⟩ := redraw_endStep_of_raise hdirty hr
    exact ⟨hd, iff_of_false hno fun hi => hbad hi.1⟩

/-- Which instruction requests a redraw (R81, R165). -/
theorem redraw_iff_of_exec (hdirty : s.dirty = false) (hout : s.output = none) (h : exec i s = .next u) :
    u.endStep.dirty = false ∧ ((∃ st, u.endStep.output = some ⟨st, true⟩) ↔
      i = .clear ∨ ∃ x y n, i = .drawSprite x y n ∧ s.RangeOk n.val ∧
        ∃ r, r < n.val ∧ s.readByte (s.i.toNat + r) ≠ 0) := by
  by_cases hwrites : Part.dirty ∈ i.writes
  case neg =>
    obtain ⟨hd, hno⟩ := no_redraw_of_dirty_not_mem hwrites hdirty hout h
    refine ⟨hd, iff_of_false hno fun hi => hwrites ((dirty_mem_writes_iff i).2 ?_)⟩
    exact hi.imp_right fun ⟨x, y, n, hi, _⟩ => ⟨x, y, n, hi⟩
  rcases (dirty_mem_writes_iff i).1 hwrites with rfl | ⟨x, y, n, rfl⟩
  · obtain ⟨hd, hiff⟩ := redraw_endStep_of_advance (s := (s.setFb blankFrame).setDirty true) h hout
    exact ⟨hd, iff_of_true (hiff.2 rfl) (.inl rfl)⟩
  · obtain ⟨hd, hiff⟩ := redraw_iff_of_drawSprite hdirty hout h
    refine ⟨hd, hiff.trans ⟨fun hi => .inr ⟨x, y, n, rfl, hi⟩, ?_⟩⟩
    rintro (hi | ⟨x', y', n', hi, hdraw⟩)
    · cases hi
    · cases hi
      exact hdraw

/-- Settles O15 (R81, R165): the redraw output is that of the executed instruction. -/
theorem redrawIffClearOrDrawnPixel : Obligations.RedrawIffClearOrDrawnPixel := by
  intro s w i hdue hs hdirty hw hi
  obtain ⟨hrun, hpc⟩ := hs
  obtain ⟨u, hu⟩ := exec_answers (s := (s.setSchedule s.schedule.tail).setOutput none) i ⟨hrun, hpc⟩
  refine ⟨u.endStep, ?_, redraw_iff_of_exec (s := (s.setSchedule s.schedule.tail).setOutput none) hdirty rfl hu⟩
  rw [stepRunsTheDecodedInstruction s w i hdue hrun hw hi, hu]
  rfl

end Sys2Proof.Machine
end

section
/-! Proofs of the family 'other': the invariant of the states between operations (spec/10_state.md section 10). -/

namespace Sys2Proof.Machine

variable {s t u : State}

theorem raise_keeps_inv {cause : FaultCause} {w a : Word} (hinv : s.Inv) (hcause : cause ≠ .none)
    (h : raise cause w a s = .next t) : t.Inv := by
  obtain ⟨hwf, hdirty, hpc, hlive, -, -⟩ := hinv
  obtain rfl := raise_next h
  exact ⟨hwf, hdirty, hpc, hlive, fun hc => absurd hc hcause, fun _ => ⟨rfl, rfl⟩⟩

/-- The outputs are part of the invariant while halted only, and there they are those of a fault. -/
theorem setOutput_keeps_inv {o : Option StepOutput} (hinv : s.Inv)
    (ho : s.faultCause ≠ .none → o = some ⟨.fault, false⟩) : (s.setOutput o).Inv := by
  obtain ⟨hwf, hdirty, hpc, hlive, hrun, hhalt⟩ := hinv
  exact ⟨hwf, hdirty, hpc, hlive, hrun, fun hc => ⟨(hhalt hc).1, ho hc⟩⟩

/-- The invariant after an instruction that retires in a running core, DIRTY reported. -/
theorem retires_keeps_inv {i : Instr} {n : Nat} {o : Option StepOutput} (hinv : s.Inv) (hs : s.Running)
    (h : Retires i s u n) :
    (((u.setPc (BitVec.ofNat 16 n)).setOutput o).setDirty false).Inv := by
  obtain ⟨hwf, -, -, hlive, hfault, -⟩ := hinv
  obtain ⟨hcause, hfpc, hfword, hfaddr⟩ := h.same (p := .fault) (by decide)
  obtain ⟨hpc0, hword0, haddr0⟩ := hfault hs.1
  refine ⟨h.keeps_wf hwf, rfl, ?_, h.keeps_live hs hlive, fun _ => ?_, fun hc => ?_⟩
  · rw [State.setDirty_pc, State.setOutput_pc, State.setPc_pc, toNat_ofNat_word (h.fits hs)]
    exact h.pc_le hs hlive
  · exact ⟨hfpc.trans hpc0, hfword.trans hword0, hfaddr.trans haddr0⟩
  · exact absurd (hcause.trans hs.1) hc

theorem executionCycle_keeps_inv (hinv : s.Inv) (h : executionCycle s = .next t) : t.Inv := by
  by_cases hrun : s.faultCause = .none
  case neg =>
    rw [executionCycle_of_halted hrun] at h
    cases h
    exact setOutput_keeps_inv hinv fun _ => rfl
  rcases executionCycle_running_next hrun h with ⟨hpc, i, u, n, hu, -, rfl⟩ | ⟨cause, w, a, hcause, hr⟩ | rfl
  · have hinv' : (s.setOutput none).Inv := setOutput_keeps_inv hinv fun hc => absurd hrun hc
    exact retires_keeps_inv hinv' ⟨hrun, hpc⟩ hu
  · exact raise_keeps_inv hinv hcause hr
  · exact setOutput_keeps_inv hinv fun hc => absurd hrun hc

theorem wf_loadProgram {bytes : List Byte} (hwf : Memory.wf s.mem = true) :
    Memory.wf (s.loadProgram bytes).mem = true := by
  unfold State.loadProgram
  split
  case isTrue hlen => exact Memory.wf_writeBytes hwf (.inr (Nat.add_le_add_left hlen _))
  case isFalse => exact hwf

theorem loadProgram_keeps_inv {bytes : List Byte} (hinv : s.Inv) : (s.loadProgram bytes).Inv := by
  obtain ⟨hwf, hdirty, hpc, hlive, hrun, hhalt⟩ := hinv
  have hframe := onlyChanges_loadProgram s bytes
  obtain ⟨hcause, hfpc, hfword, hfaddr⟩ := hframe .fault (by decide)
  have hd : (s.loadProgram bytes).dirty = s.dirty := hframe .dirty (by decide)
  have hp : (s.loadProgram bytes).pc = s.pc := hframe .pc (by decide)
  have hsp : (s.loadProgram bytes).sp = s.sp := hframe .sp (by decide)
  have hslot (k : Fin 16) : (s.loadProgram bytes).slot k = s.slot k := hframe .stack (by decide) k
  have hout : (s.loadProgram bytes).output = s.output := hframe .output (by decide)
  simp only [State.Inv, hcause, hfpc, hfword, hfaddr, hd, hp, hsp, hslot, hout]
  exact ⟨wf_loadProgram hwf, hdirty, hpc, hlive, hrun, hhalt⟩

/-- Settles O20: nothing is written, live, dirty or faulted after `Reset`. -/
theorem resetMeetsTheInvariant : Obligations.ResetMeetsTheInvariant :=
  ⟨Memory.wf_reset, rfl, by decide, fun _ hk => absurd hk (Nat.not_lt_zero _), fun _ => ⟨rfl, rfl, rfl⟩,
    fun hc => absurd rfl hc⟩

/-- Settles O19 (R26, R29, R31, R203): an Execution Cycle keeps the invariant at each of its ends; the host's operations
touch no part of it, but for memory, which `LoadProgram` keeps in canonical form, and `Reset`. -/
theorem everyStepKeepsTheInvariant : Obligations.EveryStepKeepsTheInvariant := by
  intro s t hinv h
  rcases stepDue_or_scheduled s with hdue | ⟨op, ops, hops, hstep⟩
  · rw [step_of_stepDue hdue] at h
    exact executionCycle_keeps_inv (s := s.setSchedule s.schedule.tail) hinv h
  rw [step_of_schedule hops] at h
  cases op with
  | step => exact absurd rfl hstep
  | tick | writeKey _ _ | readFrame =>
    cases h
    exact hinv
  | loadProgram bytes =>
    cases h
    exact loadProgram_keeps_inv (s := s.setSchedule ops) hinv
  | reset =>
    cases h
    exact resetMeetsTheInvariant

end Sys2Proof.Machine
end

section
/-! Proofs of the family 'other': what an instruction does to VF (R15) and what it does not do with the sound timer
(R23). -/

namespace Sys2Proof.Machine

variable {i : Instr} {s t u : State}

/-! ### VF -/

theorem vf_of_v_not_mem_writes (hv : Part.v ∉ i.writes) (h : exec i s = .next t) : t.getV 15 = s.getV 15 :=
  instructionsWriteOnlyTheirState i s t h .v (by simp [hv]) 15

theorem vf_of_advance_setV {x : Reg} {b : Byte} (h : advance (s.setV x b) = .next t) (hx : (15 == x) = false) :
    t.getV 15 = s.getV 15 := by
  obtain ⟨-, rfl⟩ := advance_next h
  rw [State.getV_setPc, State.getV_setV_ne _ _ (beq_eq_false_iff_ne.1 hx)]

theorem flagByte_eq_zero_or_one (f : Bool) : flagByte f = 0 ∨ flagByte f = 1 := by cases f <;> decide

theorem vf_of_advance_setFlagged {x : Reg} {f : Bool} {b : Byte} (h : advance (s.setFlagged x f b) = .next t)
    (hx : (15 == x) = false) : t.getV 15 = 0 ∨ t.getV 15 = 1 := by
  obtain ⟨-, rfl⟩ := advance_next h
  rw [State.getV_setPc, State.getV_setFlagged_vf _ _ _ (beq_eq_false_iff_ne.1 hx).symm]
  exact flagByte_eq_zero_or_one f

/-- No instruction but the six that write a flag, and those that name it as their destination, changes VF. -/
theorem vf_of_not_writesFlag (hflag : i.writesFlag = false) (hdest : i.destination 15 = false)
    (h : exec i s = .next t) : t.getV 15 = s.getV 15 := by
  by_cases hv : Part.v ∈ i.writes
  case neg => exact vf_of_v_not_mem_writes hv h
  cases i with
  | setImm _ _ | addImm _ _ | setReg _ _ | orReg _ _ | andReg _ _ | xorReg _ _ | getDelay _ =>
    exact vf_of_advance_setV h hdest
  | random x nn =>
    obtain ⟨-, rfl⟩ := advance_next h
    rw [State.getV_setPc, State.getV_countDraw, State.getV_setV_ne _ _ (beq_eq_false_iff_ne.1 hdest)]
  | waitKey x =>
    rcases execWaitKey_next h with ⟨-, rfl⟩ | ⟨k, -, h⟩
    · rfl
    · exact vf_of_advance_setV h hdest
  | registerLoad x =>
    rcases execRegisterLoad_next h with ⟨-, h⟩ | ⟨-, hr⟩
    · obtain ⟨-, rfl⟩ := advance_next h
      have hx : ¬ 15 ≤ x.val := of_decide_eq_false hdest
      rw [State.getV_setPc, State.getV_setAllV, Vector.getElem_ofFn]
      exact if_neg hx
    · exact onlyChanges_raise hr .v (by decide) 15
  | addReg _ _ | subReg _ _ | shiftRight _ _ | subReverse _ _ | shiftLeft _ _ | drawSprite _ _ _ =>
    cases hflag
  | _ => simp [Instr.writes] at hv

theorem vf_of_writesFlag (hflag : i.writesFlag = true) (hdest : i.destination 15 = false)
    (hrun : t.faultCause = .none) (h : exec i s = .next t) : t.getV 15 = 0 ∨ t.getV 15 = 1 := by
  cases i with
  | addReg _ _ | subReg _ _ | shiftRight _ _ | subReverse _ _ | shiftLeft _ _ =>
    exact vf_of_advance_setFlagged h hdest
  | drawSprite x y n =>
    rcases execDrawSprite_next h with ⟨-, h⟩ | ⟨-, hr⟩
    · obtain ⟨-, rfl⟩ := advance_next h
      rw [State.getV_setPc, State.getV_finishDrawing_vf]
      exact flagByte_eq_zero_or_one _
    · obtain rfl := raise_next hr
      cases hrun
  | _ => cases hflag

/-- Settles O17 (R15, R250): an instruction that writes no register leaves VF alone by its frame; the others write V[X],
a flag and V[X], or a run of registers. -/
theorem vfWrittenAsFlagOrDestinationOnly : Obligations.VfWrittenAsFlagOrDestinationOnly :=
  fun _ _ _ h => ⟨fun hflag hdest => vf_of_not_writesFlag hflag hdest h,
    fun hflag hdest hrun => vf_of_writesFlag hflag hdest hrun h⟩

/-! ### The sound timer -/

/-- The answer with ST set in its next state. -/
abbrev withSt (b : Byte) : Answer → Answer := onNext fun t => t.setSt b

theorem onWord_setSt (n : Nat) {k k' : Word → Answer} {b : Byte} (hk : ∀ w, k' w = withSt b (k w)) :
    onWord n k' = withSt b (onWord n k) := by
  unfold onWord
  split
  · exact hk _
  · rfl

theorem goto_setSt (n : Nat) (s : State) (b : Byte) : goto n (s.setSt b) = withSt b (goto n s) :=
  onWord_setSt n fun _ => rfl

/-- An instruction that goes to the same PC from updates that differ in ST alone. -/
theorem setSt_of_goto {b : Byte} {n : Nat} (hi : exec i s = goto n u) (hb : exec i (s.setSt b) = goto n (u.setSt b)) :
    exec i (s.setSt b) = withSt b (exec i s) := by
  rw [hi, hb, goto_setSt]

theorem setSt_of_advance {b : Byte} (hi : exec i s = advance u) (hb : exec i (s.setSt b) = advance (u.setSt b)) :
    exec i (s.setSt b) = withSt b (exec i s) :=
  setSt_of_goto hi hb

theorem withRange_advance_setSt {len : Nat} {w : Word} {u' : State} {b : Byte} (hu : u' = u.setSt b) :
    withRange len w (s.setSt b) (advance u') = withSt b (withRange len w s (advance u)) := by
  by_cases hok : s.RangeOk len
  · rw [withRange_ok hok, withRange_ok (s := s.setSt b) hok, hu]
    exact goto_setSt _ u b
  · rw [withRange_out hok, withRange_out (s := s.setSt b) hok]
    rfl

theorem withIndex_setSt {x : Reg} {w : Word} {k k' : Fin 16 → Answer} {b : Byte} (hk : ∀ d, k' d = withSt b (k d)) :
    withIndex x w (s.setSt b) k' = withSt b (withIndex x w s k) := by
  by_cases hd : (s.getV x).toNat < 16
  · rw [withIndex_ok hd, withIndex_ok (s := s.setSt b) hd]
    exact hk _
  · rw [withIndex_above hd, withIndex_above (s := s.setSt b) hd]
    rfl

theorem execRet_setSt (s : State) (b : Byte) : exec .ret (s.setSt b) = withSt b (exec .ret s) := by
  rcases s.sp_eq_zero_or_succ with h0 | ⟨k, hk⟩
  · rw [exec_ret_of_sp_eq_zero h0, exec_ret_of_sp_eq_zero (s := s.setSt b) h0]
    rfl
  · rw [exec_ret_of_sp_eq hk, exec_ret_of_sp_eq (s := s.setSt b) hk]
    rfl

theorem execCall_setSt (nnn : Addr12) (s : State) (b : Byte) :
    exec (.call nnn) (s.setSt b) = withSt b (exec (.call nnn) s) := by
  change execCall _ _ = withSt b (execCall _ _)
  rw [execCall, execCall]
  refine onWord_setSt _ fun w => ?_
  rcases s.sp_eq_16_or_lt with h16 | ⟨k, hk⟩
  · rw [State.push_full w h16, State.push_full (s := s.setSt b) w h16]
    rfl
  · rw [State.push_of_sp_eq w hk, State.push_of_sp_eq (s := s.setSt b) w hk]
    exact goto_setSt _ ((s.setStack _).setSp k.succ) b

/-- Settles O18 (R23, R177): neither the operand checks nor the values an instruction computes read ST, and no update
but SET_SOUND's writes it. -/
theorem soundTimerIsUnobservable : Obligations.SoundTimerIsUnobservable := by
  intro i s b hi
  cases i with
  | setSound x => exact absurd rfl (hi x)
  | clear | setImm _ _ | addImm _ _ | setReg _ _ | orReg _ _ | andReg _ _ | xorReg _ _ | getDelay _ | addReg _ _
  | subReg _ _ | shiftRight _ _ | subReverse _ _ | shiftLeft _ _ | setIndex _ | addToIndex _ | random _ _
  | setDelay _ => exact setSt_of_advance rfl rfl
  | ret => exact execRet_setSt s b
  | jump _ | jumpOffset _ | skipEqImm _ _ | skipNeqImm _ _ | skipEqReg _ _ | skipNeqReg _ _ => exact goto_setSt _ s b
  | call nnn => exact execCall_setSt nnn s b
  | drawSprite _ _ _ | bcd _ | registerDump _ | registerLoad _ => exact withRange_advance_setSt rfl
  | skipKeyPressed x =>
    rw [exec_skipKeyPressed, exec_skipKeyPressed]
    exact withIndex_setSt fun _ => goto_setSt _ s b
  | skipKeyNotPressed x =>
    rw [exec_skipKeyNotPressed, exec_skipKeyNotPressed]
    exact withIndex_setSt fun _ => goto_setSt _ s b
  | fontCharAddress x =>
    rw [exec_fontCharAddress, exec_fontCharAddress]
    exact withIndex_setSt fun _ => goto_setSt _ (s.setI _) b
  | waitKey x =>
    cases hk : s.leastPressed with
    | none =>
      rw [exec_waitKey_of_none hk, exec_waitKey_of_none (s := s.setSt b) hk]
      rfl
    | some k => exact setSt_of_advance (exec_waitKey_of_some hk) (exec_waitKey_of_some (s := s.setSt b) hk)

end Sys2Proof.Machine
end

section
/-! Proofs of the family 'other': `Reset`, loading and the host's operations (spec/70_reset_and_hazards.md,
spec/60_exceptions.md section 6). -/

namespace Sys2Proof.Machine

/-- A scheduled operation that answers a next state. -/
theorem stepsTo_of_perform {s t : State} {op : Operation} {ops : List Operation} {P : State → Prop}
    (hops : s.schedule = op :: ops) (h : perform op (s.setSchedule ops) = .next t) (hP : P t) : StepsTo s P :=
  ⟨t, (step_of_schedule hops).trans h, hP⟩

/-! ### Reset -/

theorem readByte_reset (a : Nat) : State.reset.readByte a = Memory.unlisted a := rfl

/-- Settles O21 (R241, R12): every array of the state after `Reset` is a constant one, and memory reads as unlisted. -/
theorem resetValues : Obligations.ResetValues := by
  have hv (k : Reg) : State.reset.getV k = 0 := Vector.getElem_replicate _
  have hslot (k : Fin 16) : State.reset.slot k = 0 := Vector.getElem_replicate _
  have hkey (k : Key) : State.reset.pressed k = false := Vector.getElem_replicate _
  have hpixel (x : Col) (y : Row) : State.reset.pixel x y = false := by simp [State.pixel, State.reset]
  refine ⟨rfl, rfl, rfl, rfl, rfl, rfl, hv, hslot, hkey, hpixel, rfl, rfl, rfl, rfl, fun a ha => ?_, rfl,
    fun a ha => ?_⟩
  · rw [readByte_reset, Memory.unlisted, List.getElem?_eq_getElem ha, Option.getD_some]
  · rw [readByte_reset, Memory.unlisted, List.getElem?_eq_none ha, Option.getD_none]

/-- Settles O22 (R240, R243): `Reset` takes nothing from the state but the host's own side. -/
theorem resetDoesNotDependOnTheState : Obligations.ResetDoesNotDependOnTheState := by
  intro s ops hops
  refine stepsTo_of_perform hops rfl ⟨rfl, fun p hp => ?_⟩
  cases p with
  | schedule | rnd => simp at hp
  | mem | v | stack | key => exact fun _ => rfl
  | fb => exact fun _ _ => rfl
  | fault => exact ⟨rfl, rfl, rfl, rfl⟩
  | i | pc | sp | dt | st | dirty | output | load => rfl

/-! ### Tick -/

theorem toNat_timerDown (b : Byte) : (timerDown b).toNat = b.toNat - 1 := by
  unfold timerDown
  split
  case isTrue h => rw [BitVec.toNat_sub_of_le h]; rfl
  case isFalse h => omega

theorem onlyChanges_tick (s : State) : OnlyChanges [.dt, .st] s s.tick :=
  (onlyChanges_setDt s _).trans (onlyChanges_setSt _ _)

/-- Settles O23 (R215, R217): both timers count down, in every state. -/
theorem tickDecrementsTheTimers : Obligations.TickDecrementsTheTimers := by
  intro s ops hops
  have hdt : (s.setSchedule ops).tick.dt.toNat = s.dt.toNat - 1 := toNat_timerDown s.dt
  have hst : (s.setSchedule ops).tick.st.toNat = s.st.toNat - 1 := toNat_timerDown s.st
  have hframe := (onlyChanges_setSchedule s ops).trans (onlyChanges_tick _)
  exact stepsTo_of_perform hops rfl
    ⟨fun _ => hdt, fun _ => by omega, fun _ => hst, fun _ => by omega, rfl, hframe.mono (by simp)⟩

/-- Settles O24 (R218), by induction on the number of ticks. -/
theorem timersSaturateAtZero : Obligations.TimersSaturateAtZero := by
  intro n
  induction n with
  | zero => exact fun s => ⟨rfl, rfl, OnlyChanges.refl s _⟩
  | succ n ih =>
    intro s
    obtain ⟨hdt, hst, hframe⟩ := ih s.tick
    rw [Function.iterate_succ_apply]
    refine ⟨?_, ?_, ((onlyChanges_tick s).trans hframe).mono (by simp)⟩
    · rw [hdt, show s.tick.dt.toNat = _ from toNat_timerDown s.dt]
      omega
    · rw [hst, show s.tick.st.toNat = _ from toNat_timerDown s.st]
      omega

/-! ### LoadProgram and key writes -/

theorem State.loadProgram_of_fits {s : State} {bytes : List Byte} (h : bytes.length ≤ 3584) :
    s.loadProgram bytes = (s.storeBytes 0x200 bytes).setLoadResult (some .loaded) := if_pos h

theorem State.loadProgram_of_too_large {s : State} {bytes : List Byte} (h : 3584 < bytes.length) :
    s.loadProgram bytes = s.setLoadResult (some .programTooLarge) := if_neg (Nat.not_le.2 h)

/-- Settles O25 (R244, R245): an image that fits is a run of stores from 0x200 on; one that does not is not stored at
all. -/
theorem loadProgramCopiesOrRefuses : Obligations.LoadProgramCopiesOrRefuses := by
  intro s bytes ops hops
  have hframe := (onlyChanges_setSchedule s ops).trans (onlyChanges_loadProgram (s.setSchedule ops) bytes)
  have hschedule : ((s.setSchedule ops).loadProgram bytes).schedule = ops :=
    onlyChanges_loadProgram (s.setSchedule ops) bytes .schedule (by decide)
  refine stepsTo_of_perform hops rfl ⟨hschedule, fun hfits => ?_, fun hlarge => ?_⟩
  · refine ⟨?_, fun k hk => ?_, fun a ha => ?_, hframe.mono (by simp)⟩
    · rw [State.loadProgram_of_fits hfits]
      rfl
    · rw [State.loadProgram_of_fits hfits, State.readByte_setLoadResult, State.readByte_storeBytes_inside]
    · rw [State.loadProgram_of_fits hfits, State.readByte_setLoadResult, State.readByte_storeBytes_outside _ _ _ _ ha,
        State.readByte_setSchedule]
  · rw [State.loadProgram_of_too_large hlarge]
    have hframe := (onlyChanges_setSchedule s ops).trans (onlyChanges_setLoadResult _ (some .programTooLarge))
    exact ⟨rfl, hframe.mono (by simp)⟩

theorem State.pressed_writeKey (s : State) (k j : Key) (b : Bool) :
    (s.writeKey k b).pressed j = if j = k then b else s.pressed j := by
  rw [State.writeKey, State.pressed_setKeys, Vector.getElem_set]
  simp only [Fin.ext_iff, State.pressed, eq_comm]

/-- Settles O26 (R27, R220): one flag of the key array is written. -/
theorem keyWriteSetsOneFlag : Obligations.KeyWriteSetsOneFlag := by
  intro s k b ops hops
  have hframe := (onlyChanges_setSchedule s ops).trans (onlyChanges_setKeys _ (s.key.set k.val b))
  refine stepsTo_of_perform hops rfl ⟨rfl, ?_, fun j hj => ?_, hframe.mono (by simp)⟩
  · rw [State.pressed_writeKey, if_pos rfl]
  · rw [State.pressed_writeKey, if_neg hj, State.pressed_setSchedule]

end Sys2Proof.Machine
end

section
/-! Proofs of the family 'other': arithmetic, shifts and the random byte (spec/41_alu.md). -/

namespace Sys2Proof.Machine

theorem Completes.imp {i : Instr} {s : State} {P Q : State → Prop} (h : Completes i s P) (hPQ : ∀ t, P t → Q t) :
    Completes i s Q := by
  obtain ⟨t, ht, hP⟩ := h
  exact ⟨t, ht, hPQ t hP⟩

/-! ### Results and flags as numbers -/

theorem noBorrow_iff (a b : Byte) : noBorrow a b = true ↔ a.toNat ≥ b.toNat := decide_eq_true_iff

theorem toNat_sub_byte (a b : Byte) : (a - b).toNat = (a.toNat + 256 - b.toNat) % 256 := by
  rw [BitVec.toNat_sub]
  omega

theorem lowBit_iff (a : Byte) : lowBit a = true ↔ a.toNat % 2 = 1 := by
  rw [lowBit, BitVec.getLsbD, Nat.testBit_zero, decide_eq_true_iff]

theorem highBit_iff (a : Byte) : highBit a = true ↔ a.toNat / 128 = 1 := by
  rw [highBit, BitVec.getLsbD, Nat.testBit_eq_decide_div_mod_eq, decide_eq_true_iff]
  omega

theorem toNat_shiftRight_one (a : Byte) : (a >>> 1).toNat = a.toNat / 2 := by
  rw [BitVec.toNat_ushiftRight, Nat.shiftRight_eq_div_pow, Nat.pow_one]

theorem toNat_shiftLeft_one (a : Byte) : (a <<< 1).toNat = a.toNat * 2 % 256 := by
  rw [BitVec.toNat_shiftLeft, Nat.shiftLeft_eq, Nat.pow_one]

theorem SetsFlagged.vf_iff {x : Reg} {p : Prop} {n : Nat} {s t : State} (h : SetsFlagged x p n s t) (hx : x ≠ 15) :
    t.getV 15 = 1 ↔ p := by
  obtain ⟨-, hvf, -⟩ := h
  obtain ⟨hset, hclear⟩ := hvf hx
  refine ⟨fun h1 => ?_, hset⟩
  by_contra hp
  exact absurd (h1.symm.trans (hclear hp)) (by decide)

/-! ### The obligations -/

/-- Settles O32 (R128, R130): a difference of bytes is the difference modulo 256, and `noBorrow` compares the operands. -/
theorem subtractionsSetNoBorrow : Obligations.SubtractionsSetNoBorrow := by
  refine fun x y => ⟨encodedAs_of_encodeRR rfl rfl, encodedAs_of_encodeRR rfl rfl, fun s hs => ⟨?_, ?_⟩⟩
  · exact completes_of_setFlagged hs rfl (noBorrow_iff _ _) (toNat_sub_byte _ _)
  · exact completes_of_setFlagged hs rfl (noBorrow_iff _ _) (toNat_sub_byte _ _)

/-- Settles O33 (R129, R131): the shifts halve and double, and the bit shifted out is bit 0 or bit 7. -/
theorem shiftsIgnoreYAndSetTheBitOut : Obligations.ShiftsIgnoreYAndSetTheBitOut := by
  refine fun x y => ⟨encodedAs_of_encodeRR rfl rfl, encodedAs_of_encodeRR rfl rfl, fun s hs => ⟨?_, ?_⟩⟩
  · exact completes_of_setFlagged hs rfl (lowBit_iff _) (toNat_shiftRight_one _)
  · exact completes_of_setFlagged hs rfl (highBit_iff _) (toNat_shiftLeft_one _)

/-- Settles O34 (R120, R134): what O31, O32 and O33 say of the result for X = 15, and of result and flag for Y = 15. -/
theorem vfAsOperandUsesTheOldValue : Obligations.VfAsOperandUsesTheOldValue := by
  intro s hs
  have hsub (x y : Reg) := (subtractionsSetNoBorrow x y).2.2 s hs
  have hshift (y : Reg) := (shiftsIgnoreYAndSetTheBitOut 15 y).2.2 s hs
  refine ⟨fun y => ?_, fun y => ?_, fun y => ?_, fun y => ?_, fun y => ?_, fun x hx => ?_, fun x hx => ?_⟩
  · exact ((addRegSetsTheCarry 15 y).2 s hs).imp fun _ => And.left
  · exact (hsub 15 y).1.imp fun _ => And.left
  · exact (hsub 15 y).2.imp fun _ => And.left
  · exact (hshift y).1.imp fun _ => And.left
  · exact (hshift y).2.imp fun _ => And.left
  · exact (hsub x 15).1.imp fun _ ht => ⟨ht.1, ht.vf_iff hx⟩
  · exact (hsub x 15).2.imp fun _ ht => ⟨ht.1, ht.vf_iff hx⟩

/-- Settles O35 (R132): the byte written is that of the draw at the count before, masked with NN. -/
theorem randomMasksOneDraw : Obligations.RandomMasksOneDraw := by
  refine fun x nn => ⟨encodedAs_of_toNat_encode (toNat_encodeRI _ _ _), fun s hs => ?_⟩
  obtain ⟨w, ht, hadv, hframe⟩ := exec_of_advance (i := .random x nn) hs rfl rfl
    ((onlyChanges_setV s x (s.rnd &&& nn)).trans (onlyChanges_countDraw _))
  refine ⟨_, ht, ⟨_, rfl, ?_⟩, fun k hk => ?_, rfl, hadv, hframe⟩
  · rw [State.getV_setPc, State.getV_countDraw, State.getV_setV_self]
    rfl
  · rw [State.getV_setPc, State.getV_countDraw, State.getV_setV_ne _ _ hk]

end Sys2Proof.Machine
end

section
/-! Proofs of the family 'other': CALL and RETURN (spec/40_flow.md). -/

namespace Sys2Proof.Machine

/-! ### CALL -/

/-- CALL with `k` live entries, `k` below 16 (R102). -/
theorem call_completes (nnn : Addr12) {s : State} {k : Fin 16} (hs : s.Running) (hk : s.sp.val = k.val) :
    Completes (.call nnn) s fun t =>
      (t.slot k).toNat = s.pc.toNat + 2 ∧ (∀ j, j ≠ k → t.slot j = s.slot j) ∧ t.sp.val = k.val + 1 ∧
      t.pc.toNat = nnn.toNat ∧ OnlyChanges [.stack, .sp, .pc] s t := by
  obtain ⟨-, hle⟩ := hs
  have hpc : s.pc.toNat + 2 < 0x10000 := by omega
  have hn : nnn.toNat < 0x10000 := by omega
  refine ⟨_, (exec_call_of_sp_eq nnn hk hpc).trans (goto_fits _ hn), ?_, fun j hj => ?_, rfl, ?_, ?_⟩
  · rw [State.slot_setPc, State.slot_setSp, State.slot_setStack_set, if_pos rfl, toNat_ofNat_word hpc]
  · rw [State.slot_setPc, State.slot_setSp, State.slot_setStack_set, if_neg hj]
  · exact toNat_ofNat_word hn
  · exact ((onlyChanges_setStack s _).trans (onlyChanges_setSp _ k.succ)).trans (onlyChanges_setPc _ _)

/-- Settles O38 (R102, R20): the push fills the slot that SP counts up to. -/
theorem callPushesTheNextAddress : Obligations.CallPushesTheNextAddress :=
  fun nnn => ⟨encodedAs_of_toNat_encode (toNat_encodeA _ _), fun _ _ => call_completes nnn⟩

/-- Settles O39 (R207, R208): at its limit the stack answers no push, or no pop, and the fault is taken. -/
theorem stackFaultsAtItsLimits : Obligations.StackFaultsAtItsLimits := by
  rintro s ⟨-, hle⟩
  refine ⟨fun h16 nnn => ?_, fun h0 => ?_⟩
  · exact completes_of_raise (exec_call_of_sp_eq_16 nnn (congrArg Fin.val h16) (by omega))
  · exact completes_of_raise (exec_ret_of_sp_eq_zero h0)

/-! ### Nested calls -/

theorem execAll_cons {i : Instr} {is : List Instr} {s t : State} (h : exec i s = .next t) :
    execAll (i :: is) s = execAll is t := by
  rw [execAll, h]

theorem execAll_append {is js : List Instr} {s t : State} (h : execAll is s = .next t) :
    execAll (is ++ js) s = execAll js t := by
  induction is generalizing s with
  | nil =>
    cases h
    rfl
  | cons i is ih =>
    rw [List.cons_append, execAll]
    rw [execAll] at h
    split at h
    case h_1 u hu => exact ih h
    all_goals cases h

/-- `u` is reached from `s` by CALLs to the targets: above the entries that were live in `s`, each CALL has pushed the
address after its own site. -/
structure Nested (targets : List Addr12) (s u : State) : Prop where
  running : u.Running
  sp : u.sp.val = s.sp.val + targets.length
  live : ∀ j : Fin 16, j.val < s.sp.val → u.slot j = s.slot j
  pushed : ∀ (m site : Nat) (j : Fin 16), m < targets.length → j.val = s.sp.val + m →
    (s.pc.toNat :: targets.map BitVec.toNat)[m]? = some site → (u.slot j).toNat = site + 2
  frame : OnlyChanges [.pc, .sp, .stack] s u

theorem Nested.nil {s : State} (hs : s.Running) : Nested [] s s where
  running := hs
  sp := rfl
  live := fun _ _ => rfl
  pushed := fun _ _ _ hm => absurd hm (Nat.not_lt_zero _)
  frame := OnlyChanges.refl s _

/-- CALLs at fetchable targets that fit the stack all execute (R102, R109). -/
theorem execAll_calls (targets : List Addr12) {s : State} (hs : s.Running) (hfits : s.sp.val + targets.length ≤ 16)
    (hfetch : ∀ a ∈ targets, a.toNat ≤ 0xFFE) :
    ∃ u, execAll (targets.map Instr.call) s = .next u ∧ Nested targets s u := by
  induction targets generalizing s with
  | nil => exact ⟨s, rfl, .nil hs⟩
  | cons a as ih =>
    rw [List.length_cons] at hfits
    obtain ⟨k, hk⟩ : ∃ k : Fin 16, s.sp.val = k.val := ⟨⟨s.sp.val, by omega⟩, rfl⟩
    obtain ⟨t, ht, hslot, hother, hsp, hpc, hframe⟩ := call_completes a hs hk
    obtain ⟨hcause, -⟩ := hframe .fault (by decide)
    have hrun : t.Running := ⟨hcause.trans hs.1, hpc.trans_le (hfetch a (by simp))⟩
    obtain ⟨u, hu, hnested⟩ := ih hrun (by omega) fun b hb => hfetch b (by simp [hb])
    refine ⟨u, (execAll_cons ht).trans hu, ?_⟩
    exact {
      running := hnested.running
      sp := by rw [hnested.sp, hsp, hk, List.length_cons, Nat.add_right_comm, Nat.add_assoc]
      live := fun j hj => by
        rw [hnested.live j (by omega), hother j (Fin.ne_of_val_ne (by omega))]
      pushed := fun m site j hm hj hsite => by
        cases m with
        | zero =>
          have hjk : j = k := Fin.ext (by omega)
          cases hsite
          rw [hnested.live j (by omega), hjk, hslot]
        | succ m =>
          rw [List.length_cons] at hm
          refine hnested.pushed m site j (by omega) (by omega) ?_
          rwa [hpc]
      frame := (hframe.trans hnested.frame).mono (by decide) }

/-- RETURNs down to `j` live entries leave PC at the entry of slot `j` (R100). -/
theorem execAll_rets {k : Nat} {s : State} {j : Fin 16} (hk : 0 < k) (hsp : s.sp.val = j.val + k) :
    execAll (List.replicate k .ret) s = .next ((s.setSp j.castSucc).setPc (s.slot j)) := by
  induction k generalizing s with
  | zero => omega
  | succ k ih =>
    rw [List.replicate_succ, execAll_cons (exec_ret_of_sp_eq (k := ⟨j.val + k, by omega⟩) hsp)]
    cases k with
    | zero => rfl
    | succ k => exact ih (Nat.succ_pos k) rfl

/-- Settles O43 (R109): the CALLs stack their return addresses from SP on, and `k` RETURNs leave PC at the one that the
`(n - k + 1)`-th CALL has pushed. -/
theorem nestedCallsReturnInOrder : Obligations.NestedCallsReturnInOrder := by
  intro s targets k site hs hfits hfetch hpos hk hsite
  obtain ⟨u, hu, hnested⟩ := execAll_calls targets hs hfits hfetch
  have husp := hnested.sp
  obtain ⟨j, hj⟩ : ∃ j : Fin 16, j.val = s.sp.val + (targets.length - k) := ⟨⟨_, by omega⟩, rfl⟩
  have hrets := execAll_rets (s := u) (j := j) hpos (by omega)
  have hframe := (onlyChanges_setSp u j.castSucc).trans (onlyChanges_setPc _ (u.slot j))
  refine ⟨_, (execAll_append hu).trans hrets, ?_, ?_, fun l hl => ?_, (hnested.frame.trans hframe).mono (by decide)⟩
  · exact hnested.pushed _ site j (by omega) hj hsite
  · show j.val = _
    omega
  · exact hnested.live l hl

end Sys2Proof.Machine
end

section
/-! Proofs of the family 'other': the index register and memory (spec/42_index_memory.md, spec/20_memory.md). -/

namespace Sys2Proof.Machine

/-! ### Instructions on a range that is in memory -/

theorem exec_bcd (x : Reg) (s : State) : exec (.bcd x) s =
    withRange 3 (encode (.bcd x)) s (advance (s.storeBytes s.i.toNat (bcdDigits (s.getV x)))) := rfl

theorem exec_registerDump (x : Reg) (s : State) : exec (.registerDump x) s =
    withRange (x.val + 1) (encode (.registerDump x)) s
      (advance (s.storeBytes s.i.toNat (s.v.toList.take (x.val + 1)))) := rfl

/-- An instruction that stores bytes at `I` and ends with the default advance. -/
theorem completes_of_storeBytes {i : Instr} {s : State} {vs : List Byte} (hs : s.Running)
    (hi : exec i s = advance (s.storeBytes s.i.toNat vs)) :
    Completes i s fun t =>
      (∀ (k : Nat) (h : k < vs.length), t.readByte (s.i.toNat + k) = vs[k]) ∧
      (∀ a, a < s.i.toNat ∨ s.i.toNat + vs.length ≤ a → t.readByte a = s.readByte a) ∧
      Advanced s t ∧ OnlyChanges [.mem, .pc] s t := by
  obtain ⟨w, ht, hadv, hframe⟩ := exec_of_advance hs hi rfl (onlyChanges_storeBytes s _ vs)
  exact ⟨_, ht, fun k => State.readByte_storeBytes_inside s _ k vs,
    fun a => State.readByte_storeBytes_outside s _ a vs, hadv, hframe⟩

/-- The glyph of a digit lies at five times the digit: the font starts at address 0 (R143). -/
theorem toNat_fontAddress (d : Fin 16) : (BitVec.ofNat 16 (Config.fontBase + 5 * d.val)).toNat = 5 * d.val := by
  rw [Config.fontBase, Nat.zero_add]
  exact toNat_ofNat_word (by omega)

/-- Settles O46 (R143): a digit passes the index check. -/
theorem fontCharAddressOfADigit : Obligations.FontCharAddressOfADigit := by
  refine fun x => ⟨encodedAs_of_encodeRI rfl rfl, fun s hs hdigit => ?_⟩
  have hi := (exec_fontCharAddress x s).trans (withIndex_ok (Nat.lt_succ_of_le hdigit))
  exact completes_of_setI hs hi (toNat_fontAddress _)

/-- Settles O47 (R144): each decimal digit of a byte is a byte, and they lie at `I` in the order they are stored. -/
theorem bcdStoresTheDigits : Obligations.BcdStoresTheDigits := by
  refine fun x => ⟨encodedAs_of_encodeRI rfl rfl, fun s hs hok => ?_⟩
  refine (completes_of_storeBytes hs ((exec_bcd x s).trans (withRange_ok hok))).imp ?_
  rintro t ⟨hin, hout, hadv, hframe⟩
  have hlen : (bcdDigits (s.getV x)).length = 3 := rfl
  have hhundreds : t.readByte s.i.toNat = _ := hin 0 (by omega)
  have htens := hin 1 (by omega)
  have hones := hin 2 (by omega)
  refine ⟨?_, ?_, ?_, hout, hadv, hframe⟩
  · rw [hhundreds]
    exact Nat.mod_eq_of_lt (by omega)
  · rw [htens]
    exact Nat.mod_eq_of_lt (by omega)
  · rw [hones]
    exact Nat.mod_eq_of_lt (by omega)

/-- Settles O48 (R145): the bytes stored are the registers from V[0] on. -/
theorem registerDumpStoresTheRegisters : Obligations.RegisterDumpStoresTheRegisters := by
  refine fun x => ⟨encodedAs_of_encodeRI rfl rfl, fun s hs hok => ?_⟩
  have hlen : (s.v.toList.take (x.val + 1)).length = x.val + 1 := by
    rw [List.length_take, Vector.length_toList]
    omega
  refine (completes_of_storeBytes hs ((exec_registerDump x s).trans (withRange_ok hok))).imp ?_
  rintro t ⟨hin, hout, hadv, hframe⟩
  rw [hlen] at hout
  refine ⟨fun k hk => ?_, hout, hadv, hframe⟩
  rw [hin k (by rw [hlen]; exact Nat.lt_succ_of_le hk), List.getElem_take, Vector.getElem_toList]
  rfl

/-- The register file that REGISTER_LOAD leaves (R146). -/
def State.loaded (s : State) (x : Reg) : Vector Byte 16 :=
  Vector.ofFn fun k => if k.val ≤ x.val then s.readByte (s.i.toNat + k.val) else s.getV k

theorem State.getV_setAllV_loaded (s : State) (x k : Reg) :
    (s.setAllV (s.loaded x)).getV k = if k ≤ x then s.readByte (s.i.toNat + k.val) else s.getV k := by
  rw [State.getV_setAllV, State.loaded, Vector.getElem_ofFn]
  rfl

theorem exec_registerLoad (x : Reg) (s : State) : exec (.registerLoad x) s =
    withRange (x.val + 1) (encode (.registerLoad x)) s (advance (s.setAllV (s.loaded x))) := rfl

/-- Settles O49 (R146): the registers up to V[X] are read from memory, those above keep their values. -/
theorem registerLoadLoadsTheRegisters : Obligations.RegisterLoadLoadsTheRegisters := by
  refine fun x => ⟨encodedAs_of_encodeRI rfl rfl, fun s hs hok => ?_⟩
  obtain ⟨w, ht, hadv, hframe⟩ := exec_of_advance hs ((exec_registerLoad x s).trans (withRange_ok hok))
    (State.setAllV_pc s _) (onlyChanges_setAllV s _)
  refine ⟨_, ht, fun k hk => ?_, fun k hk => ?_, hadv, hframe⟩
  · rw [State.getV_setPc, State.getV_setAllV_loaded, if_pos hk]
  · rw [State.getV_setPc, State.getV_setAllV_loaded, if_neg (not_le.2 hk)]

/-! ### Operand checks that fail -/

theorem completes_of_range_out {i : Instr} {s : State} {len : Nat} {w : Word} {k : Answer}
    (hi : exec i s = withRange len w s k) (hout : ¬ s.RangeOk len) :
    Completes i s (FaultTaken .outOfBoundsAccess w (max s.i.toNat 0x1000) s) := by
  rw [← toNat_ofNat_max_word]
  exact completes_of_raise (hi.trans (withRange_out hout))

theorem completes_of_index_above {i : Instr} {s : State} {x : Reg} {w : Word} {k : Fin 16 → Answer}
    (hi : exec i s = withIndex x w s k) (habove : 15 < (s.getV x).toNat) :
    Completes i s (FaultTaken .outOfBoundsAccess w (s.getV x).toNat s) := by
  rw [← BitVec.toNat_setWidth_of_le (show 8 ≤ 16 by decide) (b := s.getV x)]
  exact completes_of_raise (hi.trans (withIndex_above (Nat.not_lt.2 habove)))

/-- Settles O50 (R45, R147, R209): all four check their range before anything else. -/
theorem rangeFaultsBeforeTheFirstAccess : Obligations.RangeFaultsBeforeTheFirstAccess := by
  refine fun s _ => ⟨fun x y n hout => ?_, fun x hout => ?_, fun x hout => ?_, fun x hout => ?_⟩
  · exact completes_of_range_out (exec_drawSprite x y n s) hout
  · exact completes_of_range_out (exec_bcd x s) hout
  · exact completes_of_range_out (exec_registerDump x s) hout
  · exact completes_of_range_out (exec_registerLoad x s) hout

/-- Settles O51 (R143, R170, R209): all three check their index before anything else. -/
theorem indexFaultsAboveFifteen : Obligations.IndexFaultsAboveFifteen := by
  refine fun s x _ habove => ⟨?_, ?_, ?_⟩
  · exact completes_of_index_above (exec_fontCharAddress x s) habove
  · exact completes_of_index_above (exec_skipKeyPressed x s) habove
  · exact completes_of_index_above (exec_skipKeyNotPressed x s) habove

/-! ### What a store is seen by -/

/-- Settles O52 (R51): the load reads at the same `I` the bytes that the dump has left there. -/
theorem dumpThenLoadReturnsTheValues : Obligations.DumpThenLoadReturnsTheValues := by
  intro s x hs hok
  refine ((registerDumpStoresTheRegisters x).2 s hs hok).imp fun t ⟨hdump, _⟩ u hu hi hmem => ?_
  have hok' : u.RangeOk (x.val + 1) := by rwa [State.RangeOk, hi]
  refine ((registerLoadLoadsTheRegisters x).2 u hu hok').imp fun r ⟨hload, _⟩ k hk => ?_
  calc r.getV k = u.readByte (u.i.toNat + k.val) := hload k hk
    _ = t.readByte (s.i.toNat + k.val) := by rw [hi]; exact hmem _
    _ = s.getV k := hdump k hk

/-- Settles O53 (R53, R252): after the dump PC is at `I`, where V[0] and V[1] now lie. -/
theorem storeIsSeenByTheNextFetch : Obligations.StoreIsSeenByTheNextFetch := by
  intro s x hs hx hok hi
  refine ((registerDumpStoresTheRegisters x).2 s hs hok).imp fun t ⟨hdump, _, hadv, _⟩ => ?_
  have hpc : t.pc.toNat = s.i.toNat := hadv.trans hi.symm
  have h0 : t.readByte s.i.toNat = s.getV 0 := hdump 0 (Fin.zero_le x)
  have h1 : t.readByte (s.i.toNat + 1) = s.getV 1 := hdump 1 hx
  have hend := hok.resolve_left (by omega)
  rw [State.fetch_ok (by omega), hpc, h0, h1]

end Sys2Proof.Machine
end

section
/-! Proofs of the family 'other': keys (spec/44_keys_timers.md). -/

namespace Sys2Proof.Machine

/-! ### Key numbers -/

theorem withIndex_of_toNat_eq {x : Reg} {w : Word} {s : State} {f : Fin 16 → Answer} {k : Fin 16}
    (h : (s.getV x).toNat = k.val) : withIndex x w s f = f k := by
  have hlt : (s.getV x).toNat < 16 := by omega
  rw [withIndex_ok hlt, show (⟨_, hlt⟩ : Fin 16) = k from Fin.ext h]

theorem State.leastPressed_eq_some {s : State} {k : Key} (hk : s.pressed k = true)
    (hlow : ∀ j, j < k → s.pressed j = false) : s.leastPressed = some k := by
  rw [State.leastPressed, List.find?_eq_some_iff_getElem]
  refine ⟨hk, k.val, by simp, by simp, fun j hj => ?_⟩
  rw [List.getElem_finRange, hlow _ (Fin.lt_def.2 (by simpa using hj))]
  rfl

theorem State.leastPressed_eq_none {s : State} (h : ∀ k, s.pressed k = false) : s.leastPressed = none := by
  rw [State.leastPressed, List.find?_eq_none]
  intro k _
  rw [h k]
  decide

theorem toNat_keyByte (k : Key) : (keyByte k).toNat = k.val := by
  rw [keyByte, BitVec.toNat_ofNat]
  omega

/-! ### The obligations -/

/-- Settles O57 (R171, R172): both are `skipIf` on the key flag that V[X] names. -/
theorem keySkips : Obligations.KeySkips := by
  refine fun x => ⟨encodedAs_of_encodeRI rfl rfl, encodedAs_of_encodeRI rfl rfl, fun s k hs hk => ⟨?_, ?_⟩⟩
  · exact completes_of_skipIf hs ((exec_skipKeyPressed x s).trans (withIndex_of_toNat_eq hk)) Iff.rfl
  · exact completes_of_skipIf hs ((exec_skipKeyNotPressed x s).trans (withIndex_of_toNat_eq hk))
      (by rw [Bool.not_eq_true'])

/-- Settles O59 (R174): the search for a pressed key goes by rising key number. -/
theorem waitKeyReportsTheLeastKey : Obligations.WaitKeyReportsTheLeastKey := by
  refine fun x => ⟨encodedAs_of_encodeRI rfl rfl, fun s k hs hk hlow => ?_⟩
  exact completes_of_setV hs (exec_waitKey_of_some (State.leastPressed_eq_some hk hlow)) (toNat_keyByte k)

/-- Settles O60 (R80, R174): the search finds no key, so the cycle ends in the stall's outputs. -/
theorem waitKeyStallsWithoutAKey : Obligations.WaitKeyStallsWithoutAKey := by
  intro s w x hdue hs hw hi hkeys
  have hstall : exec (.waitKey x) ((s.setSchedule s.schedule.tail).setOutput none) = stall _ :=
    exec_waitKey_of_none (State.leastPressed_eq_none hkeys)
  have hframe := (onlyChanges_setSchedule s s.schedule.tail).trans (onlyChanges_setOutput _ (some ⟨.stalled, false⟩))
  refine ⟨_, (stepRunsTheDecodedInstruction s w _ hdue hs.1 hw hi).trans (congrArg (onNext State.endStep) hstall),
    rfl, rfl, hframe.mono (by simp)⟩

end Sys2Proof.Machine
end
